-- ==== Sys2Proof/Word.lean ====
section
/-! DEFINITION. The word type of the CME: every register access moves one 32-bit value (20_memory R42, R44). -/

namespace Sys2Proof

/-- The value of one host access (00_scope section 5: register values are unsigned 32-bit words). -/
abbrev Word := BitVec 32

end Sys2Proof
end

