-- ==== Sys2Proof/Machine/Bus.lean ====
section
/-! DEFINITION. The host's side of the register window: an access (00_scope R5, 20_memory R40), the names of the 43
registers, their access kinds and their offsets (20_memory R41). -/

namespace Sys2Proof.Machine

/-- The width of a host access. Only `word` is part of the interface (20_memory R43, R44). -/
inductive Width where
  | byte
  | half
  | word
deriving DecidableEq, Repr

/-- One access as the host issues it: a read or a write at a byte offset from the start of the window. Offsets and
widths that the interface does not have can be written down, so that the model can refuse them (20_memory R43). -/
inductive Access where
  /-- `RD(off)`. -/
  | rd (width : Width) (off : Nat)
  /-- `WR(off, v)`. -/
  | wr (width : Width) (off : Nat) (v : Word)
deriving DecidableEq, Repr

/-- The byte offset of an access. -/
def Access.off : Access → Nat
  | .rd _ off => off
  | .wr _ off _ => off

/-- The width of an access. -/
def Access.width : Access → Width
  | .rd w _ => w
  | .wr w _ _ => w

/-- The registers of the window (20_memory R41). -/
inductive Reg where
  | id | cmd | status | errcode | errinfo | pixpush
  | pixin | pixout | hclH | hclC | hclL | red | score | bestSlot | bestId | bestScore
  | depth | sradius | ktap0 | ktap1 | ktap2 | ktap3 | ktap4 | matchalg | maxpeaks | pdsH | pdsC | pdsL | assetId
  | pixcnt | hsel | haddr | hdataLo | hdataHi | clsel | clN | clPos | clMassLo | clMassHi
  | nslots | slStat | slId | slPixcnt
deriving DecidableEq, Repr

/-- How the host may access a register: `RW`, `RO` or `WO` (20_memory R41). -/
inductive Mode where
  | rw
  | ro
  | wo
deriving DecidableEq, Repr

/-- The access column of 20_memory R41. -/
def Reg.mode : Reg → Mode
  | .id => .ro
  | .cmd => .wo
  | .status => .ro
  | .errcode => .ro
  | .errinfo => .ro
  | .pixpush => .wo
  | .pixin => .rw
  | .pixout => .ro
  | .hclH => .rw
  | .hclC => .rw
  | .hclL => .rw
  | .red => .ro
  | .score => .ro
  | .bestSlot => .ro
  | .bestId => .ro
  | .bestScore => .ro
  | .depth => .rw
  | .sradius => .rw
  | .ktap0 => .rw
  | .ktap1 => .rw
  | .ktap2 => .rw
  | .ktap3 => .rw
  | .ktap4 => .rw
  | .matchalg => .rw
  | .maxpeaks => .rw
  | .pdsH => .rw
  | .pdsC => .rw
  | .pdsL => .rw
  | .assetId => .rw
  | .pixcnt => .ro
  | .hsel => .rw
  | .haddr => .rw
  | .hdataLo => .ro
  | .hdataHi => .ro
  | .clsel => .rw
  | .clN => .ro
  | .clPos => .ro
  | .clMassLo => .ro
  | .clMassHi => .ro
  | .nslots => .ro
  | .slStat => .ro
  | .slId => .ro
  | .slPixcnt => .ro

/-- The offset column of 20_memory R41. -/
def Reg.offset : Reg → Nat
  | .id => 0x00
  | .cmd => 0x04
  | .status => 0x08
  | .errcode => 0x0C
  | .errinfo => 0x10
  | .pixpush => 0x14
  | .pixin => 0x18
  | .pixout => 0x1C
  | .hclH => 0x20
  | .hclC => 0x24
  | .hclL => 0x28
  | .red => 0x2C
  | .score => 0x30
  | .bestSlot => 0x34
  | .bestId => 0x38
  | .bestScore => 0x3C
  | .depth => 0x40
  | .sradius => 0x44
  | .ktap0 => 0x48
  | .ktap1 => 0x4C
  | .ktap2 => 0x50
  | .ktap3 => 0x54
  | .ktap4 => 0x58
  | .matchalg => 0x5C
  | .maxpeaks => 0x60
  | .pdsH => 0x64
  | .pdsC => 0x68
  | .pdsL => 0x6C
  | .assetId => 0x70
  | .pixcnt => 0x74
  | .hsel => 0x78
  | .haddr => 0x7C
  | .hdataLo => 0x80
  | .hdataHi => 0x84
  | .clsel => 0x88
  | .clN => 0x8C
  | .clPos => 0x90
  | .clMassLo => 0x94
  | .clMassHi => 0x98
  | .nslots => 0x9C
  | .slStat => 0xA0
  | .slId => 0xA4
  | .slPixcnt => 0xA8

/-- Every register, in the order of 20_memory R41. -/
def Reg.all : List Reg :=
  [.id, .cmd, .status, .errcode, .errinfo, .pixpush, .pixin, .pixout, .hclH, .hclC, .hclL, .red, .score, .bestSlot,
   .bestId, .bestScore, .depth, .sradius, .ktap0, .ktap1, .ktap2, .ktap3, .ktap4, .matchalg, .maxpeaks, .pdsH, .pdsC,
   .pdsL, .assetId, .pixcnt, .hsel, .haddr, .hdataLo, .hdataHi, .clsel, .clN, .clPos, .clMassLo, .clMassHi, .nslots,
   .slStat, .slId, .slPixcnt]

/-- The register at an offset; none for an unmapped one (20_memory R41). -/
def Reg.atOffset (off : Nat) : Option Reg :=
  Reg.all.find? fun r => r.offset == off

end Sys2Proof.Machine
end

