-- ==== Sys2Proof/Syntax.lean ====
section
/-! DEFINITION. The fourteen commands of command set CME-1, one constructor per row of the opcode map (30_encoding R62).
The only operand of any command is the slot index of format `CS` (R61); every other operand is a fixed register. -/

namespace Sys2Proof

/-- A command of the CME (30_encoding R62). -/
inductive Instr where
  /-- `NOP` (46_system R185). -/
  | nop
  /-- `SRESET` (46_system R186). -/
  | sreset
  /-- `CVT.RGB2HCL` (40_color_convert R90). -/
  | cvtRgb2hcl
  /-- `CVT.HCL2RGB` (40_color_convert R97). -/
  | cvtHcl2rgb
  /-- `QUANT` (41_quantize R111). -/
  | quant
  /-- `H.CLEAR` (42_histogram R120). -/
  | hClear
  /-- `H.ACC` (42_histogram R121). -/
  | hAcc
  /-- `H.SMOOTH` (42_histogram R127). -/
  | hSmooth
  /-- `P.EXTRACT` (44_peak R153). -/
  | pExtract
  /-- `A.COMMIT slot` (45_assets_match R170). -/
  | aCommit (slot : BitVec 16)
  /-- `A.SEAL` (45_assets_match R171). -/
  | aSeal
  /-- `S.CORR slot` (43_correlation R142). -/
  | sCorr (slot : BitVec 16)
  /-- `S.PEAK slot` (44_peak R159). -/
  | sPeak (slot : BitVec 16)
  /-- `MATCH` (45_assets_match R174). -/
  | matchBest
deriving DecidableEq, Repr

end Sys2Proof
end

