-- ==== Sys2Proof/WellFormed.lean ====
section
/-! DEFINITION. Well-formedness. A command's only field is a slot index of exactly 16 bits (30_encoding R61), which its
type already says, so every command is well formed. What can be ill formed is an access: the interface has only 32-bit
accesses at multiples of 4 inside the 256-byte window (20_memory R40, R43). -/

namespace Sys2Proof

/-- A command is well formed when each of its fields fits the encoding; the types leave nothing to check. -/
def Instr.wellFormed : Instr → Bool
  | .nop => true
  | .sreset => true
  | .cvtRgb2hcl => true
  | .cvtHcl2rgb => true
  | .quant => true
  | .hClear => true
  | .hAcc => true
  | .hSmooth => true
  | .pExtract => true
  | .aCommit slot => slot.toNat < 65536
  | .aSeal => true
  | .sCorr slot => slot.toNat < 65536
  | .sPeak slot => slot.toNat < 65536
  | .matchBest => true

/-- An access is part of the interface: 32 bits wide, at a multiple of 4, inside the window (20_memory R40, R43). -/
def Machine.Access.wellFormed (a : Machine.Access) : Bool :=
  a.width == .word && a.off % 4 == 0 && decide (a.off < 256)

end Sys2Proof
end

