-- ==== Sys2Proof/Decode.lean ====
section
/-! DEFINITION. The opcode map, the decoder and the encoder of command words (30_encoding R60 to R64). -/

namespace Sys2Proof

/-- Why a word is illegal (30_encoding R63). -/
inductive DecodeError where
  /-- `OPC` is none of the fourteen opcodes. -/
  | unknownOpcode
  /-- A bit that the row requires to be zero is set. -/
  | reservedBits
deriving DecidableEq, Repr

/-- `OPC = w[31:24]` (30_encoding R60). -/
def opcField (w : Word) : BitVec 8 := w.extractLsb' 24 8

/-- `RSV = w[23:16]` (30_encoding R60). -/
def rsvField (w : Word) : BitVec 8 := w.extractLsb' 16 8

/-- `ARG = w[15:0]` (30_encoding R60). -/
def argField (w : Word) : BitVec 16 := w.extractLsb' 0 16

/-- The commands of format `C0`, by opcode (30_encoding R62). -/
def c0Command (opc : BitVec 8) : Option Instr :=
  match opc.toNat with
  | 0x00 => some .nop
  | 0x01 => some .sreset
  | 0x10 => some .cvtRgb2hcl
  | 0x11 => some .cvtHcl2rgb
  | 0x12 => some .quant
  | 0x20 => some .hClear
  | 0x21 => some .hAcc
  | 0x22 => some .hSmooth
  | 0x30 => some .pExtract
  | 0x41 => some .aSeal
  | 0x52 => some .matchBest
  | _ => none

/-- The commands of format `CS`, by opcode, with their slot operand (30_encoding R61, R62). -/
def csCommand (opc : BitVec 8) (slot : BitVec 16) : Option Instr :=
  match opc.toNat with
  | 0x40 => some (.aCommit slot)
  | 0x50 => some (.sCorr slot)
  | 0x51 => some (.sPeak slot)
  | _ => none

/-- `decode(w)` of 30_encoding R64: total, with the verdict illegal given by name. -/
def decode (w : Word) : Except DecodeError Instr :=
  match csCommand (opcField w) (argField w) with
  | some i => if rsvField w = 0#8 then .ok i else .error .reservedBits
  | none =>
    match c0Command (opcField w) with
    | some i => if rsvField w = 0#8 ∧ argField w = 0#16 then .ok i else .error .reservedBits
    | none => .error .unknownOpcode

/-- The opcode of a command (30_encoding R62). -/
def Instr.opcode : Instr → BitVec 8
  | .nop => 0x00#8
  | .sreset => 0x01#8
  | .cvtRgb2hcl => 0x10#8
  | .cvtHcl2rgb => 0x11#8
  | .quant => 0x12#8
  | .hClear => 0x20#8
  | .hAcc => 0x21#8
  | .hSmooth => 0x22#8
  | .pExtract => 0x30#8
  | .aCommit _ => 0x40#8
  | .aSeal => 0x41#8
  | .sCorr _ => 0x50#8
  | .sPeak _ => 0x51#8
  | .matchBest => 0x52#8

/-- The `ARG` field of a command: its slot operand, or zero in format `C0` (30_encoding R61). -/
def Instr.arg : Instr → BitVec 16
  | .nop => 0#16
  | .sreset => 0#16
  | .cvtRgb2hcl => 0#16
  | .cvtHcl2rgb => 0#16
  | .quant => 0#16
  | .hClear => 0#16
  | .hAcc => 0#16
  | .hSmooth => 0#16
  | .pExtract => 0#16
  | .aCommit slot => slot
  | .aSeal => 0#16
  | .sCorr slot => slot
  | .sPeak slot => slot
  | .matchBest => 0#16

/-- The command word of a command: `OPC` in [31:24], zero in [23:16], `ARG` in [15:0] (30_encoding R60). -/
def encode (i : Instr) : Word := i.opcode ++ (0#8 ++ i.arg)

/-- A row of the opcode map: a word `w` selects the row when `w &&& mask = pattern` (30_encoding R62). -/
structure OpRow where
  mnemonic : String
  pattern : Word
  mask : Word
deriving DecidableEq, Repr

/-- A word selects a row (30_encoding R62). -/
def OpRow.selects (r : OpRow) (w : Word) : Bool := w &&& r.mask == r.pattern

/-- The rows of format `C0` (30_encoding R62). -/
def c0Rows : List OpRow :=
  [⟨"NOP", 0x00000000#32, 0xFFFFFFFF#32⟩,
   ⟨"SRESET", 0x01000000#32, 0xFFFFFFFF#32⟩,
   ⟨"CVT.RGB2HCL", 0x10000000#32, 0xFFFFFFFF#32⟩,
   ⟨"CVT.HCL2RGB", 0x11000000#32, 0xFFFFFFFF#32⟩,
   ⟨"QUANT", 0x12000000#32, 0xFFFFFFFF#32⟩,
   ⟨"H.CLEAR", 0x20000000#32, 0xFFFFFFFF#32⟩,
   ⟨"H.ACC", 0x21000000#32, 0xFFFFFFFF#32⟩,
   ⟨"H.SMOOTH", 0x22000000#32, 0xFFFFFFFF#32⟩,
   ⟨"P.EXTRACT", 0x30000000#32, 0xFFFFFFFF#32⟩,
   ⟨"A.SEAL", 0x41000000#32, 0xFFFFFFFF#32⟩,
   ⟨"MATCH", 0x52000000#32, 0xFFFFFFFF#32⟩]

/-- The rows of format `CS` (30_encoding R62). -/
def csRows : List OpRow :=
  [⟨"A.COMMIT", 0x40000000#32, 0xFFFF0000#32⟩,
   ⟨"S.CORR", 0x50000000#32, 0xFFFF0000#32⟩,
   ⟨"S.PEAK", 0x51000000#32, 0xFFFF0000#32⟩]

/-- The opcode map of 30_encoding R62, the two formats one after the other. -/
def opcodeMap : List OpRow := c0Rows ++ csRows

/-- The mnemonic of a command (30_encoding R62). -/
def Instr.mnemonic : Instr → String
  | .nop => "NOP"
  | .sreset => "SRESET"
  | .cvtRgb2hcl => "CVT.RGB2HCL"
  | .cvtHcl2rgb => "CVT.HCL2RGB"
  | .quant => "QUANT"
  | .hClear => "H.CLEAR"
  | .hAcc => "H.ACC"
  | .hSmooth => "H.SMOOTH"
  | .pExtract => "P.EXTRACT"
  | .aCommit _ => "A.COMMIT"
  | .aSeal => "A.SEAL"
  | .sCorr _ => "S.CORR"
  | .sPeak _ => "S.PEAK"
  | .matchBest => "MATCH"

/-- The command read from a table row's bits: a command is one 32-bit value and has no byte order (30_encoding R60,
20_memory R42), so the bits are the word; bits above `nbits` are zero. A number that does not fit 32 bits is no command
word (log 18). -/
def decodeTableWord (nbits w : Nat) : Option Instr :=
  if w % 2 ^ nbits < 2 ^ 32 then
    match decode (BitVec.ofNat 32 (w % 2 ^ nbits)) with
    | .ok i => some i
    | .error _ => none
  else none

end Sys2Proof
end

