-- ==== Sys2Proof/Machine/Numerics.lean ====
section
/-! DEFINITION. The arithmetic primitives of 00_scope R6 to R9, over mathematical integers. -/

namespace Sys2Proof.Machine

/-- `fdiv(n, d)` for `d > 0`: the floor of the exact quotient (00_scope R6). -/
def fdiv (n d : Int) : Int := n / d

/-- `n mod d` for `d > 0`, in `[0, d)` (00_scope R6). -/
def fmod (n d : Int) : Int := n - d * fdiv n d

/-- `a >> k`, the arithmetic shift, towards minus infinity (00_scope R6). -/
def asr (a : Int) (k : Nat) : Int := fdiv a (2 ^ k)

/-- `a << k`, exact (00_scope R6). -/
def shl (a : Int) (k : Nat) : Int := a * 2 ^ k

/-- `rdiv(n, d)` for `d > 0`: division rounded to nearest, halves up (00_scope R7). -/
def rdiv (n d : Int) : Int := fdiv (2 * n + d) (2 * d)

/-- The search behind `iroot`: the greatest root between `r` and `r + 2^k - 1`, one bit a step. -/
def irootFrom (p n : Nat) : Nat → Nat → Nat
  | 0, r => r
  | k + 1, r => irootFrom p n k (if (r + 2 ^ k) ^ p ≤ n then r + 2 ^ k else r)

/-- The largest `r` with `r^p ≤ n`, for `p > 0`: `2^(log2 n / p + 1)` is above every root. -/
def iroot (p n : Nat) : Nat := irootFrom p n (Nat.log2 n / p + 1) 0

/-- `isqrt(n)` (00_scope R8). -/
def isqrt (n : Nat) : Nat := iroot 2 n

/-- `icbrt(n)` (00_scope R8). -/
def icbrt (n : Nat) : Nat := iroot 3 n

/-- `clamp(v, lo, hi)` (00_scope R8). -/
def clamp (v lo hi : Int) : Int := if v < lo then lo else if hi < v then hi else v

/-- `cell(h, c, l)` at depth `d` (00_scope R9). -/
def cell (d h c l : Nat) : Nat := (h * d + c) * d + l

/-- The bucket triple of a cell index at depth `d`, the inverse of `cell` on buckets below `d` (00_scope R9). -/
def cellTriple (d i : Nat) : Nat × Nat × Nat := (i / d / d, i / d % d, i % d)

end Sys2Proof.Machine
end

