-- ==== Sys2Proof/Config.lean ====
section
/-! DEFINITION. The parameters of a CME implementation (00_scope R4) and the identity constant (R1). Every value is
fixed for CME-1 except `NSLOT`, which the spec leaves open. The constant tables of profile P0 stand in
`Machine/Tables.lean`. -/

namespace Sys2Proof

/-- `DEPTH_MIN`, the smallest legal depth (00_scope R4). -/
def Config.depthMin : Nat := 2

/-- `DEPTH_MAX`, the largest legal depth (00_scope R4). -/
def Config.depthMax : Nat := 32

/-- `PKMAX`, the bound on `MAXPEAKS` and on the length of a cluster list (00_scope R4). -/
def Config.pkMax : Nat := 16

/-- `RMAX`, the bound on the smoothing radius (00_scope R4). -/
def Config.rMax : Nat := 4

/-- `TAP_ONE`, the tap value that stands for 1.0 (00_scope R4). -/
def Config.tapOne : Nat := 256

/-- `HUE_MOD`, 360 degrees in raw units (00_scope R4). -/
def Config.hueMod : Nat := 46080

/-- `LIGHT_MAX`, lightness 100 in raw units (00_scope R4). -/
def Config.lightMax : Nat := 12800

/-- `CHROMA_MAX`, the quantizer's `channelMax` for chroma, 134 in raw units (00_scope R4). -/
def Config.chromaMax : Nat := 17152

/-- The value of the `ID` register, ASCII "EMOT" (00_scope R1). -/
def Config.ident : Word := 0x454D4F54#32

/-- `NSLOT - 1` of the implementation: the spec leaves `NSLOT` open in 1 to 65536 (00_scope R4, 92 D20, 93 U7), so no
value of it can be evaluated or proved. DESIGN CHOICE, safe: log 3. Only `State.reset` uses it; every operation reads
the state's own copy, so that a statement about every state is a statement about every `NSLOT`. -/
opaque Config.nslotPred : Fin 65536

end Sys2Proof
end

