-- ==== Sys2Proof/Machine/State.lean ====
section
/-! DEFINITION. The architectural state of one CME (10_state R10), its reset value (70_reset_and_hazards R220), and the
reasons for which a step can stop. The groups of fields are those of R10: data, status, configuration and window
registers, `PIXCNT`, `H`, `S`, the tile cluster list, the asset slots. -/

namespace Sys2Proof.Machine

/-- The spec has no event that stops the machine: every fault of the CME is latched in `STATUS`, `ERRCODE` and `ERRINFO`
and the step completes (60_exceptions R190, R191). So this type has no constructor. -/
inductive Fault where
deriving DecidableEq, Repr

/-- Why the model has no step. -/
inductive Refusal where
  /-- `exec` raises it for a command that has no meaning yet; none is left. Safe: nothing is claimed of the command. -/
  | notModelled (mnemonic : String)
  /-- The access rule raises it for an access that is not 32 bits wide (20_memory R43, 93 U10). Safe: the spec refuses
  such an access too. -/
  | narrowAccess
  /-- The access rule raises it for an offset that is not a multiple of 4 (20_memory R43, 93 U10). Safe, as above. -/
  | misalignedAccess
  /-- The access rule raises it for an offset outside the 256-byte window (20_memory R40, R43). Safe, as above. -/
  | outsideWindow
deriving DecidableEq, Repr

/-- The fault codes by name (60_exceptions R192). -/
inductive ErrCode where
  | illegalCmd
  | badCfg
  | cfgLocked
  | seq
  | countOvf
  | kernel
  | slot
  | sealed
  | notSealed
  | emptySet
  | badOperand
  | access
deriving DecidableEq, Repr

/-- A memory as plain data: the cells that differ from what an unlisted cell reads as, by rising index (log 4). -/
abbrev Sparse (α : Type) := List (Nat × α)

/-- A cluster record `(h, c, l, mass)` (10_state R24). -/
structure Cluster where
  h : BitVec 5
  c : BitVec 5
  l : BitVec 5
  mass : BitVec 48
deriving DecidableEq, Repr

/-- An asset slot (10_state R25). `CLN` is the length of `cl` (log 6). -/
structure Slot where
  valid : Bool
  ident : Word
  pixcnt : BitVec 24
  cells : Sparse (BitVec 48)
  pkvalid : Bool
  cl : List Cluster
deriving DecidableEq, Repr

/-- A slot as reset leaves it: `VALID = PKVALID = 0`; the other fields are unspecified and unobservable (10_state R25,
R27) and are held as zero (DESIGN CHOICE, log 7). -/
def Slot.empty : Slot :=
  { valid := false, ident := 0#32, pixcnt := 0#24, cells := [], pkvalid := false, cl := [] }

/-- The data registers (10_state R11). -/
structure DataRegs where
  pixin : Word
  pixout : Word
  hclH : BitVec 16
  hclC : BitVec 16
  hclL : BitVec 16
  red : Word
  score : Word
  bestSlot : BitVec 16
  bestId : Word
  bestScore : Word
deriving DecidableEq, Repr

/-- The status flags and the fault record (10_state R13, R21). -/
structure Status where
  err : Bool
  sealed : Bool
  hInit : Bool
  sValid : Bool
  pkValid : Bool
  degen : Bool
  bestValid : Bool
  errCode : Word
  errInfo : Word
deriving DecidableEq, Repr

/-- The configuration registers, each at the width of its field (10_state R18; log 9). -/
structure CfgRegs where
  depth : BitVec 6
  sradius : BitVec 3
  ktap0 : BitVec 9
  ktap1 : BitVec 9
  ktap2 : BitVec 9
  ktap3 : BitVec 9
  ktap4 : BitVec 9
  matchalg : BitVec 1
  maxpeaks : BitVec 5
  pdsH : BitVec 8
  pdsC : BitVec 8
  pdsL : BitVec 8
  assetId : Word
deriving DecidableEq, Repr

/-- The window registers (10_state R20). -/
structure WinRegs where
  hsel : Word
  haddr : BitVec 15
  clsel : Word
deriving DecidableEq, Repr

/-- The state of one CME (10_state R10) with, beside it, the model's own three fields: the parameter `NSLOT` (log 3), the
accesses the host has issued and the CME has not performed (log 1), and the value the last read returned (log 2). What
is left out stands in log 15. -/
structure State where
  /-- R10(a). -/
  data : DataRegs
  /-- R10(b). -/
  status : Status
  /-- R10(c). -/
  cfg : CfgRegs
  /-- R10(d). -/
  win : WinRegs
  /-- `PIXCNT`, R10(e). -/
  pixcnt : BitVec 24
  /-- `H`, R10(f), R22. -/
  h : Sparse (BitVec 24)
  /-- `S`, R10(g), R23. -/
  smooth : Sparse (BitVec 48)
  /-- `TCL[0..TCLN-1]`, R10(h), R24; `TCLN` is its length (log 6). -/
  tcl : List Cluster
  /-- The asset slots by number, R10(i), R25. -/
  slots : Sparse Slot
  /-- `NSLOT - 1`, a parameter that no step changes (00_scope R4, 10_state R28). -/
  nslotPred : Fin 65536
  /-- The host's accesses to come, oldest first (00_scope R5, 20_memory R53). -/
  pending : List Access
  /-- The Value of the last `RD` (00_scope R5). -/
  rdata : Word
deriving DecidableEq, Repr

/-- The parameter `NSLOT` (00_scope R4). -/
def State.nslot (s : State) : Nat := s.nslotPred.val + 1

/-- The data registers after reset (10_state R11, 70 R220). -/
def DataRegs.reset : DataRegs :=
  { pixin := 0#32, pixout := 0#32, hclH := 0#16, hclC := 0#16, hclL := 0#16, red := 0#32, score := 0#32,
    bestSlot := 0#16, bestId := 0#32, bestScore := 0#32 }

/-- The flags and the fault record after reset (10_state R13, R21, 70 R220). -/
def Status.reset : Status :=
  { err := false, sealed := false, hInit := false, sValid := false, pkValid := false, degen := false,
    bestValid := false, errCode := 0#32, errInfo := 0#32 }

/-- The configuration registers after reset (10_state R18, 70 R220). -/
def CfgRegs.reset : CfgRegs :=
  { depth := 16#6, sradius := 1#3, ktap0 := 128#9, ktap1 := 64#9, ktap2 := 0#9, ktap3 := 0#9, ktap4 := 0#9,
    matchalg := 0#1, maxpeaks := 8#5, pdsH := 16#8, pdsC := 16#8, pdsL := 16#8, assetId := 0#32 }

/-- The window registers after reset (10_state R20, 70 R220). -/
def WinRegs.reset : WinRegs :=
  { hsel := 0#32, haddr := 0#15, clsel := 0#32 }

/-- The reset state of a CME with a given `NSLOT` (70 R220). The memories, whose contents are unspecified and
unobservable after reset (10_state R27, 93 U9), list nothing (DESIGN CHOICE, logs 4, 6, 7); the host has issued no access
(log 1). -/
def State.resetWith (nslotPred : Fin 65536) : State :=
  { data := .reset, status := .reset, cfg := .reset, win := .reset, pixcnt := 0#24, h := [], smooth := [], tcl := [],
    slots := [], nslotPred := nslotPred, pending := [], rdata := 0#32 }

/-- The machine right after reset (70 R220). -/
def State.reset : State := State.resetWith Config.nslotPred

end Sys2Proof.Machine
end

