-- ==== Sys2Proof/Machine/Ops.lean ====
section
/-! DEFINITION. The named operations over memory and registers: sparse memories (log 4), one setter per field of the state,
taking a fault (60_exceptions R191) and leaving it by reset (60 R195), the `ERR` gate (60 R193, R194), slots. -/

namespace Sys2Proof.Machine

/-- The result of a command or an access. -/
abbrev Result := Host.Outcome State Fault Refusal

/-! ## Memories -/

/-- The cell `i` of a memory whose unlisted cells read as `dflt`. -/
def Sparse.read {α : Type} (dflt : α) : Sparse α → Nat → α
  | [], _ => dflt
  | (k, v) :: m, i => if i = k then v else Sparse.read dflt m i

/-- Write the cell `i`, keeping the canonical form: rising indices, no cell listed at the default value. -/
def Sparse.write {α : Type} [DecidableEq α] (dflt : α) : Sparse α → Nat → α → Sparse α
  | [], i, v => if v = dflt then [] else [(i, v)]
  | (k, u) :: m, i, v =>
    if i < k then (if v = dflt then (k, u) :: m else (i, v) :: (k, u) :: m)
    else if i = k then (if v = dflt then m else (i, v) :: m)
    else (k, u) :: Sparse.write dflt m i v

/-- The indices of a memory rise strictly and every listed cell lies at or above `lo`. -/
def Sparse.rising {α : Type} : Nat → Sparse α → Bool
  | _, [] => true
  | lo, (k, _) :: m => decide (lo ≤ k) && Sparse.rising (k + 1) m

/-- The canonical form of a memory: strictly rising indices, no cell listed at the default value. -/
def Sparse.wf {α : Type} [DecidableEq α] (dflt : α) (m : Sparse α) : Bool :=
  Sparse.rising 0 m && m.all fun e => decide (e.2 ≠ dflt)

/-- The memory of cells `0` to `n - 1` holding `f 0` to `f (n - 1)`, in canonical form. -/
def Sparse.ofFn {α : Type} [DecidableEq α] (dflt : α) (n : Nat) (f : Nat → α) : Sparse α :=
  (List.range n).filterMap fun i => if f i = dflt then none else some (i, f i)

/-- `dst` with its cells below `n` replaced by those of `src`. -/
def Sparse.replaceBelow {α : Type} (n : Nat) (src dst : Sparse α) : Sparse α :=
  (src.filter fun e => decide (e.1 < n)) ++ (dst.filter fun e => decide (n ≤ e.1))

/-- The cells `0` to `n - 1` as numbers. -/
def Sparse.cells {w : Nat} (n : Nat) (m : Sparse (BitVec w)) : List Nat :=
  (List.range n).map fun i => (Sparse.read 0#w m i).toNat

/-- The sum of the cells `0` to `n - 1`. -/
def Sparse.total {w : Nat} (n : Nat) (m : Sparse (BitVec w)) : Nat := (Sparse.cells n m).sum

/-! ## Setters, one per field of the state -/

def State.setData (s : State) (x : DataRegs) : State := { s with data := x }
def State.setStatus (s : State) (x : Status) : State := { s with status := x }
def State.setCfg (s : State) (x : CfgRegs) : State := { s with cfg := x }
def State.setWin (s : State) (x : WinRegs) : State := { s with win := x }
def State.setPixcnt (s : State) (x : BitVec 24) : State := { s with pixcnt := x }
def State.setH (s : State) (x : Sparse (BitVec 24)) : State := { s with h := x }
def State.setSmooth (s : State) (x : Sparse (BitVec 48)) : State := { s with smooth := x }
def State.setTcl (s : State) (x : List Cluster) : State := { s with tcl := x }
def State.setSlots (s : State) (x : Sparse Slot) : State := { s with slots := x }
def State.setPending (s : State) (x : List Access) : State := { s with pending := x }
def State.setRdata (s : State) (x : Word) : State := { s with rdata := x }

/-! ## Faults and the `ERR` gate -/

/-- The value `ERRCODE` reads for a fault (60_exceptions R192). -/
def ErrCode.code : ErrCode → Word
  | .illegalCmd => 1#32
  | .badCfg => 2#32
  | .cfgLocked => 3#32
  | .seq => 4#32
  | .countOvf => 5#32
  | .kernel => 6#32
  | .slot => 7#32
  | .sealed => 8#32
  | .notSealed => 9#32
  | .emptySet => 10#32
  | .badOperand => 11#32
  | .access => 12#32

/-- `raise CODE(info)`: latch the fault and change nothing else (60_exceptions R191). -/
def State.raise (s : State) (c : ErrCode) (info : Word) : State :=
  if s.status.err then s else s.setStatus { s.status with err := true, errCode := c.code, errInfo := info }

/-- Leaving a fault: the whole CME goes to the reset state, exactly as at power-on; there is no other return
(60_exceptions R195, 46_system R186, 70 R220). The parameter `NSLOT` and the host's own side of the interface are not the
CME's state and stay (log 5). -/
def State.toReset (s : State) : State :=
  ((State.resetWith s.nslotPred).setPending s.pending).setRdata s.rdata

/-- The `ERR` gate: while a fault is latched a write changes nothing, else it has its effect (60_exceptions R194). -/
def State.gate (s : State) (effect : State) : State := if s.status.err then s else effect

/-- A command's effect behind the `ERR` gate (60_exceptions R193, steps 2, 4 and 5). -/
def State.command (s : State) (effect : State) : Result := .next (s.gate effect)

/-- One check of a command: go on with `k` when it passes, else raise the fault with the command word (60_exceptions
R191, R193 step 4). -/
def State.require (s : State) (ok : Bool) (c : ErrCode) (i : Instr) (k : State) : State :=
  if ok then k else s.raise c (encode i)

/-! ## Depth and slots -/

/-- `DEPTH` as a number. -/
def State.d (s : State) : Nat := s.cfg.depth.toNat

/-- `DEPTH^3`, the number of cells of a histogram (10_state R22). -/
def State.ncell (s : State) : Nat := s.d * s.d * s.d

/-- The slot `k` (10_state R25). -/
def State.slotAt (s : State) (k : Nat) : Slot := Sparse.read Slot.empty s.slots k

/-- `k < NSLOT and SLOT[k].VALID = 1` (43_correlation R142, 20_memory R49). -/
def State.slotValid (s : State) (k : Nat) : Bool := decide (k < s.nslot) && (s.slotAt k).valid

/-- The valid slots with their numbers, by rising number (45_assets_match R172; log 16). -/
def State.validSlots (s : State) : List (Nat × Slot) :=
  s.slots.filter fun e => decide (e.1 < s.nslot) && e.2.valid

/-- Write slot `k`, keeping the canonical form. -/
def State.setSlot (s : State) (k : Nat) (x : Slot) : State := s.setSlots (Sparse.write Slot.empty s.slots k x)

end Sys2Proof.Machine
end

