-- ==== Sys2Proof/Machine/Flags.lean ====
section
/-! DEFINITION. The flags of `STATUS`: the word it reads (10_state R13), what each command does to them, and the lock of
`DEPTH` (10_state R19). "Flags are written only as this table says" (R13). -/

namespace Sys2Proof.Machine

/-- One flag at its bit position. -/
def flagBit (b : Bool) (k : Nat) : Word := if b then 1#32 <<< k else 0#32

/-- The value `STATUS` reads; bits [31:7] read zero (10_state R13). -/
def Status.word (x : Status) : Word :=
  flagBit x.err 0 ||| flagBit x.sealed 1 ||| flagBit x.hInit 2 ||| flagBit x.sValid 3 ||| flagBit x.pkValid 4
    ||| flagBit x.degen 5 ||| flagBit x.bestValid 6

/-- `H.CLEAR`: `H_INIT <- 1 ; S_VALID <- 0 ; PK_VALID <- 0` (42_histogram R120). -/
def Status.cleared (x : Status) : Status := { x with hInit := true, sValid := false, pkValid := false }

/-- `H.ACC`: `S_VALID <- 0 ; PK_VALID <- 0` (42_histogram R121). -/
def Status.accumulated (x : Status) : Status := { x with sValid := false, pkValid := false }

/-- `H.SMOOTH`: `S_VALID <- 1 ; PK_VALID <- 0` (42_histogram R127). -/
def Status.smoothed (x : Status) : Status := { x with sValid := true, pkValid := false }

/-- `P.EXTRACT`: `PK_VALID <- 1` (44_peak R153). -/
def Status.extracted (x : Status) : Status := { x with pkValid := true }

/-- `A.SEAL`: `SEALED <- 1` (45_assets_match R171). -/
def Status.seal (x : Status) : Status := { x with sealed := true }

/-- `S.CORR`, `S.PEAK`: `DEGEN <- g` (43_correlation R142, 44_peak R159). -/
def Status.scored (x : Status) (g : Bool) : Status := { x with degen := g }

/-- `MATCH`: `BEST_VALID <- 1 ; DEGEN <- g` (45_assets_match R174). -/
def Status.matched (x : Status) (g : Bool) : Status := { x with bestValid := true, degen := g }

/-- A `DEPTH` write that changes `DEPTH`: `H_INIT <- 0` (10_state R19). -/
def Status.uncleared (x : Status) : Status := { x with hInit := false }

/-- `locked = (PIXCNT ≠ 0) or (S_VALID = 1) or (some slot has VALID = 1)` (10_state R19). -/
def State.locked (s : State) : Bool := decide (s.pixcnt ≠ 0#24) || s.status.sValid || !s.validSlots.isEmpty

end Sys2Proof.Machine
end

