-- ==== Sys2Proof/Machine/Operands.lean ====
section
/-! DEFINITION. Every operand form of the commands: the pixel word (10_state R14), the HCL registers and their legal
ranges (R15), the reduced colour (R16), the score format (R17), the taps (R18, 42_histogram R125, R128), and the legal
sets of the configuration and window registers (10_state R18, R20). -/

namespace Sys2Proof.Machine

/-- `R = w[7:0]` of a pixel word (10_state R14). -/
def pixR (w : Word) : Nat := (w.extractLsb' 0 8).toNat

/-- `G = w[15:8]` of a pixel word (10_state R14). -/
def pixG (w : Word) : Nat := (w.extractLsb' 8 8).toNat

/-- `B = w[23:16]` of a pixel word (10_state R14). -/
def pixB (w : Word) : Nat := (w.extractLsb' 16 8).toNat

/-- The pixel word `r | g << 8 | b << 16 | a << 24` (10_state R14, 30_encoding R66). -/
def pixelWord (r g b a : Nat) : Word :=
  BitVec.ofNat 8 a ++ (BitVec.ofNat 8 b ++ (BitVec.ofNat 8 g ++ BitVec.ofNat 8 r))

/-- The HCL registers hold a colour of the legal ranges (10_state R15; the check of R97 and R111). -/
def DataRegs.hclLegal (x : DataRegs) : Bool :=
  decide (x.hclH.toNat ≤ 46079) && decide (x.hclC.toNat ≤ 32767) && decide (x.hclL.toNat ≤ 12800)

/-- The layout of `RED` and `CL_POS`: `h` in [20:16], `c` in [12:8], `l` in [4:0] (10_state R16, 20_memory R50). The
fields do not overlap, so the words are put together by `|||` as 41_quantize R111 writes it. -/
def bucketWord (h c l : Nat) : Word :=
  (BitVec.ofNat 32 h <<< 16) ||| (BitVec.ofNat 32 c <<< 8) ||| BitVec.ofNat 32 l

/-- A score in two's complement, Q2.30 (10_state R17). -/
def scoreWord (q : Int) : Word := BitVec.ofInt 32 q

/-- `SRADIUS` as a number (42_histogram R125). -/
def CfgRegs.radius (x : CfgRegs) : Nat := x.sradius.toNat

/-- `K[j] = KTAPj` (42_histogram R125). There are five taps; a higher index can be asked for only with an illegal
`SRADIUS`, which no run holds (log 11). -/
def CfgRegs.tap (x : CfgRegs) : Nat → Nat
  | 0 => x.ktap0.toNat
  | 1 => x.ktap1.toNat
  | 2 => x.ktap2.toNat
  | 3 => x.ktap3.toNat
  | 4 => x.ktap4.toNat
  | _ => 0

/-- `KTAP0 + 2·(KTAP1 + … + KTAP_R)` with `R = SRADIUS` (42_histogram R128). -/
def CfgRegs.tapSum (x : CfgRegs) : Nat :=
  x.tap 0 + 2 * ((List.range x.radius).map fun j => x.tap (j + 1)).sum

/-- `KIND = HSEL[1:0]` (10_state R20). -/
def WinRegs.kind (x : WinRegs) : Nat := (x.hsel.extractLsb' 0 2).toNat

/-- `SLOT = HSEL[31:16]` (10_state R20). -/
def WinRegs.hslot (x : WinRegs) : Nat := (x.hsel.extractLsb' 16 16).toNat

/-- `K = CLSEL[3:0]` (10_state R20). -/
def WinRegs.clIndex (x : WinRegs) : Nat := (x.clsel.extractLsb' 0 4).toNat

/-- `SRC = CLSEL[8]` (10_state R20): set for the list of a slot, clear for the tile list. -/
def WinRegs.clSrc (x : WinRegs) : Bool := x.clsel.getLsbD 8

/-- `SLOT = CLSEL[31:16]` (10_state R20). -/
def WinRegs.clSlot (x : WinRegs) : Nat := (x.clsel.extractLsb' 16 16).toNat

/-- The legal values of `HSEL`: `KIND` 0, 1 or 2 and bits [15:2] zero (10_state R20). -/
def hselLegal (v : Word) : Bool := decide (v.extractLsb' 0 2 ≠ 3#2) && decide (v.extractLsb' 2 14 = 0#14)

/-- The legal values of `CLSEL`: bits [7:4] and [15:9] zero (10_state R20). -/
def clselLegal (v : Word) : Bool := decide (v.extractLsb' 4 4 = 0#4) && decide (v.extractLsb' 9 7 = 0#7)

/-- The legal values of the registers whose writes are checked (10_state R18, R20); a register without a legal set takes
any value. -/
def Reg.legal : Reg → Word → Bool
  | .depth, v => decide (2 ≤ v.toNat) && decide (v.toNat ≤ 32)
  | .sradius, v => decide (v.toNat ≤ 4)
  | .ktap0, v => decide (v.toNat ≤ 256)
  | .ktap1, v => decide (v.toNat ≤ 256)
  | .ktap2, v => decide (v.toNat ≤ 256)
  | .ktap3, v => decide (v.toNat ≤ 256)
  | .ktap4, v => decide (v.toNat ≤ 256)
  | .matchalg, v => decide (v.toNat ≤ 1)
  | .maxpeaks, v => decide (1 ≤ v.toNat) && decide (v.toNat ≤ 16)
  | .pdsH, v => decide (v.toNat ≤ 255)
  | .pdsC, v => decide (v.toNat ≤ 255)
  | .pdsL, v => decide (v.toNat ≤ 255)
  | .hsel, v => hselLegal v
  | .haddr, v => decide (v.toNat ≤ 32767)
  | .clsel, v => clselLegal v
  | _, _ => true

end Sys2Proof.Machine
end

