-- ==== Sys2Proof/Machine/Correlation.lean ====
section
/-! DEFINITION. The correlation scorer (43_correlation): the function `corr` (R140) with its degenerate case (R141), and
the command `S.CORR` (R142). -/

namespace Sys2Proof.Machine

/-- `Σ x_i · y_i`. -/
def dot (xs ys : List Nat) : Nat := (List.zipWith (· * ·) xs ys).sum

/-- `n·Σ x_i·y_i - (Σ x_i)(Σ y_i)`: `NUM` of two arrays, and `VT`, `VE` of one array with itself (43_correlation R140). -/
def covar (n : Nat) (xs ys : List Nat) : Int := (n : Int) * dot xs ys - (xs.sum : Int) * ys.sum

/-- The quotient of 43_correlation R140 from `NUM`, `VT` and `VE`. -/
def corrQuotient (num vt ve : Int) : Int := fdiv (shl num 30) (isqrt (vt * ve).toNat)

/-- `corr(St, Se)` of two arrays of `n` cells, result `(score, degenerate)` (43_correlation R140, R141). -/
def corr (n : Nat) (st se : List Nat) : Int × Bool :=
  if covar n st st = 0 ∨ covar n se se = 0 then (0, true)
  else (clamp (corrQuotient (covar n st se) (covar n st st) (covar n se se)) (-(2 ^ 30)) (2 ^ 30), false)

/-- `corr(S, SLOT.S)` at the depth of the state (43_correlation R142, 45_assets_match R172). -/
def State.corrScore (s : State) (x : Slot) : Int × Bool :=
  corr s.ncell (Sparse.cells s.ncell s.smooth) (Sparse.cells s.ncell x.cells)

/-- `SCORE <- q ; DEGEN <- g` (43_correlation R142, 44_peak R159). -/
def State.setScore (s : State) (r : Int × Bool) : State :=
  (s.setData { s.data with score := scoreWord r.1 }).setStatus (s.status.scored r.2)

/-- `S.CORR slot` (43_correlation R142). -/
def execSCorr (slot : BitVec 16) (s : State) : Result :=
  s.command <|
  s.require s.status.sealed .notSealed (.sCorr slot) <|
  s.require (s.slotValid slot.toNat) .slot (.sCorr slot) <|
  s.require s.status.sValid .seq (.sCorr slot) <|
  s.setScore (s.corrScore (s.slotAt slot.toNat))

end Sys2Proof.Machine
end

