-- ==== Sys2Proof/Machine/Tables.lean ====
section
/-! DEFINITION. The constant tables, configuration and not state (10_state R28): `LIN`, `MF`, `ATAN`, `KINV`, `MI` of
profile P0 (40_color_convert R81, R82, R87, R94) and `FRAC2` (44_peak R155). The literals are normative; UNVERIFIED
against any hardware (log 13). -/

namespace Sys2Proof.Machine

/-- `LIN[0..63]` (40_color_convert R81). -/
def linA : List Nat :=
  [0, 20, 40, 60, 80, 99, 119, 139, 159, 179, 199, 219, 241, 264, 288, 313,
   340, 367, 396, 427, 458, 491, 526, 562, 599, 637, 677, 718, 761, 805, 851, 898,
   947, 997, 1048, 1101, 1156, 1212, 1270, 1330, 1391, 1453, 1517, 1583, 1651, 1720, 1791, 1863,
   1937, 2013, 2090, 2170, 2250, 2333, 2418, 2504, 2592, 2681, 2773, 2866, 2961, 3058, 3157, 3258]

/-- `LIN[64..127]` (40_color_convert R81). -/
def linB : List Nat :=
  [3360, 3464, 3570, 3678, 3788, 3900, 4014, 4129, 4247, 4366, 4488, 4611, 4736, 4864, 4993, 5124,
   5257, 5392, 5530, 5669, 5810, 5953, 6099, 6246, 6395, 6547, 6701, 6856, 7014, 7174, 7336, 7500,
   7666, 7834, 8004, 8177, 8352, 8529, 8708, 8889, 9072, 9258, 9446, 9636, 9828, 10022, 10219, 10418,
   10619, 10822, 11028, 11236, 11446, 11658, 11873, 12090, 12309, 12531, 12754, 12981, 13209, 13440, 13673, 13909]

/-- `LIN[128..191]` (40_color_convert R81). -/
def linC : List Nat :=
  [14147, 14387, 14629, 14874, 15122, 15372, 15624, 15878, 16135, 16394, 16656, 16920, 17187, 17456, 17727, 18001,
   18278, 18556, 18838, 19121, 19408, 19696, 19988, 20281, 20578, 20876, 21178, 21481, 21788, 22096, 22408, 22722,
   23038, 23357, 23679, 24003, 24329, 24659, 24991, 25325, 25662, 26002, 26344, 26689, 27036, 27387, 27739, 28095,
   28453, 28813, 29177, 29543, 29911, 30283, 30657, 31033, 31413, 31795, 32180, 32567, 32957, 33350, 33746, 34144]

/-- `LIN[192..255]` (40_color_convert R81). -/
def linD : List Nat :=
  [34545, 34949, 35355, 35765, 36177, 36591, 37009, 37429, 37852, 38278, 38707, 39138, 39572, 40009, 40449, 40892,
   41337, 41786, 42237, 42691, 43147, 43607, 44069, 44534, 45003, 45474, 45947, 46424, 46904, 47386, 47871, 48360,
   48851, 49345, 49842, 50342, 50844, 51350, 51859, 52370, 52884, 53402, 53922, 54445, 54972, 55501, 56033, 56568,
   57106, 57647, 58191, 58738, 59288, 59841, 60397, 60956, 61518, 62083, 62651, 63222, 63796, 64373, 64953, 65536]

/-- `LIN[0..255]`, the linearisation table; 65536 stands for 1.0 (40_color_convert R81). -/
def linTable : List Nat := linA ++ linB ++ linC ++ linD

/-- `LIN[v]` (40_color_convert R81). -/
def lin (v : Nat) : Nat := linTable.getD v 0

/-- The rows `X/Xn`, `Y/Yn`, `Z/Zn` of `MF`, each of sum 32768 (40_color_convert R82). -/
def mfX : Nat × Nat × Nat := (14220, 12327, 6221)
def mfY : Nat × Nat × Nat := (6969, 23434, 2365)
def mfZ : Nat × Nat × Nat := (582, 3587, 28599)

/-- The rows `R`, `G`, `B` of `MI`, each of sum 65536 (40_color_convert R94). -/
def miR : Int × Int × Int := (201840, -100729, -35575)
def miG : Int × Int × Int := (-60375, 122945, 2966)
def miB : Int × Int × Int := (3465, -13370, 75441)

/-- `ATAN[0..19]`, in units of 2^-16 degree (40_color_convert R87). -/
def atanTable : List Int :=
  [2949120, 1740967, 919879, 466945, 234379, 117304, 58666, 29335, 14668, 7334,
   3667, 1833, 917, 458, 229, 115, 57, 29, 14, 7]

/-- `KINV` (40_color_convert R87). -/
def kinv : Int := 39797

/-- `DEG`, one degree in angle units (40_color_convert R87). -/
def deg : Int := 65536

/-- `FRAC2[0..15]` (44_peak R155). -/
def frac2Table : List Nat :=
  [65536, 62757, 60097, 57549, 55109, 52773, 50535, 48393,
   46341, 44376, 42495, 40693, 38968, 37316, 35734, 34219]

/-- `FRAC2[r]` (44_peak R155). -/
def frac2 (r : Nat) : Nat := frac2Table.getD r 0

end Sys2Proof.Machine
end

