-- ==== Sys2Proof/Machine/Peak.lean ====
section
/-! DEFINITION. The peak extractor and peak matcher (44_peak): `peaks` (R150 to R152), `pscore` (R154 to R158, R160) and
the commands `P.EXTRACT` (R153) and `S.PEAK` (R159). -/

namespace Sys2Proof.Machine

/-! ## Extraction -/

/-- The offsets `-1, 0, +1` (44_peak R150). -/
def unitOffsets : List Int := [-1, 0, 1]

/-- The cell at an offset from `(h, c, l)`, with hue wrapping; none outside the array on the other two axes, and none for
the offset zero (44_peak R150). -/
def neighbourAt (d h c l : Nat) (oh oc ol : Int) : Option (Nat × Nat × Nat) :=
  if oh = 0 ∧ oc = 0 ∧ ol = 0 then none
  else if 0 ≤ (c : Int) + oc ∧ (c : Int) + oc ≤ (d : Int) - 1 ∧ 0 ≤ (l : Int) + ol ∧ (l : Int) + ol ≤ (d : Int) - 1 then
    some ((fmod ((h : Int) + oh) d).toNat, ((c : Int) + oc).toNat, ((l : Int) + ol).toNat)
  else none

/-- `N(h, c, l)` (44_peak R150); a neighbour reached by two offsets stands twice, which changes nothing. -/
def neighbours (d h c l : Nat) : List (Nat × Nat × Nat) :=
  unitOffsets.flatMap fun oh => unitOffsets.flatMap fun oc => unitOffsets.filterMap fun ol => neighbourAt d h c l oh oc ol

/-- The value of cell `(h, c, l)` of `S`. -/
def smoothAt (m : Sparse (BitVec 48)) (d h c l : Nat) : Nat := (Sparse.read 0#48 m (cell d h c l)).toNat

/-- Cell `(h, c, l)` is a peak: strictly above every neighbour (44_peak R151). -/
def isPeak (m : Sparse (BitVec 48)) (d h c l : Nat) : Bool :=
  (neighbours d h c l).all fun p => decide (smoothAt m d p.1 p.2.1 p.2.2 < smoothAt m d h c l)

/-- The cluster record of cell `i` (44_peak R152). -/
def clusterOf (m : Sparse (BitVec 48)) (d i : Nat) : Cluster :=
  { h := BitVec.ofNat 5 (cellTriple d i).1, c := BitVec.ofNat 5 (cellTriple d i).2.1,
    l := BitVec.ofNat 5 (cellTriple d i).2.2, mass := Sparse.read 0#48 m i }

/-- The indices of all peaks below `d^3`, rising (44_peak R151). -/
def peakCells (m : Sparse (BitVec 48)) (d : Nat) : List Nat :=
  (List.range (d * d * d)).filter fun i => isPeak m d (cellTriple d i).1 (cellTriple d i).2.1 (cellTriple d i).2.2

/-- Cell `i` ranks before cell `j`: greater mass, or equal mass and lower index (44_peak R152). -/
def ranksBefore (m : Sparse (BitVec 48)) (i j : Nat) : Bool :=
  decide ((Sparse.read 0#48 m j).toNat < (Sparse.read 0#48 m i).toNat)
    || (decide ((Sparse.read 0#48 m j).toNat = (Sparse.read 0#48 m i).toNat) && decide (i < j))

/-- Put `i` before the first index it ranks before. -/
def rankInsert (m : Sparse (BitVec 48)) (i : Nat) : List Nat → List Nat
  | [] => [i]
  | j :: js => if ranksBefore m i j then i :: j :: js else j :: rankInsert m i js

/-- Sort indices by rank (44_peak R152). -/
def rankSort (m : Sparse (BitVec 48)) (is : List Nat) : List Nat := is.foldr (rankInsert m) []

/-- `peaks(S, m)`: every peak, by rank, at most `maxPeaks` of them (44_peak R152). -/
def peaks (m : Sparse (BitVec 48)) (d maxPeaks : Nat) : List Cluster :=
  ((rankSort m (peakCells m d)).take maxPeaks).map (clusterOf m d)

/-- `P.EXTRACT` (44_peak R153). -/
def execPExtract (s : State) : Result :=
  s.command <|
  s.require s.status.sValid .seq .pExtract <|
  (s.setTcl (peaks s.smooth s.d s.cfg.maxpeaks.toNat)).setStatus s.status.extracted

/-! ## Scoring -/

/-- `D2` of two clusters (44_peak R154). -/
def dist2 (k : CfgRegs) (d : Nat) (p q : Cluster) : Nat :=
  let dh : Int := min |(p.h.toNat : Int) - q.h.toNat| ((d : Int) - |(p.h.toNat : Int) - q.h.toNat|)
  let dc : Int := |(p.c.toNat : Int) - q.c.toNat|
  let dl : Int := |(p.l.toNat : Int) - q.l.toNat|
  ((k.pdsH.toNat : Int) * dh ^ 2 + k.pdsC.toNat * dc ^ 2 + k.pdsL.toNat * dl ^ 2).toNat

/-- The similarity of a squared distance, unsigned Q0.16 (44_peak R155). -/
def simOfDist (d2 : Nat) : Nat := if 17 ≤ d2 / 16 then 0 else frac2 (d2 % 16) / 2 ^ (d2 / 16)

/-- `sim(p, q)` (44_peak R155). -/
def sim (k : CfgRegs) (d : Nat) (p q : Cluster) : Nat := simOfDist (dist2 k d p q)

/-- A pair of clusters, by index, with its weight `W[i][j]` (44_peak R156). -/
structure WeightedPair where
  i : Nat
  j : Nat
  weight : Nat
deriving DecidableEq, Repr

/-- All pairs with their weights, by rising `i` and then `j` (44_peak R156). -/
def weightedPairs (k : CfgRegs) (d : Nat) (ts es : List Cluster) : List WeightedPair :=
  ts.zipIdx.flatMap fun t => es.zipIdx.map fun e =>
    { i := t.2, j := e.2, weight := sim k d t.1 e.1 * t.1.mass.toNat * e.1.mass.toNat }

/-- The pair of greatest weight, the first of equal ones: least `i`, then least `j` (44_peak R157). -/
def heaviest : List WeightedPair → Option WeightedPair
  | [] => none
  | p :: ps =>
    match heaviest ps with
    | none => some p
    | some q => if p.weight < q.weight then some q else some p

/-- The greedy one-to-one assignment: `rounds` times choose the heaviest pair whose clusters are both unmatched, and add
its weight (44_peak R157). -/
def greedy : Nat → List WeightedPair → Nat
  | 0, _ => 0
  | n + 1, ps =>
    match heaviest ps with
    | none => 0
    | some p => p.weight + greedy n (ps.filter fun q => decide (q.i ≠ p.i) && decide (q.j ≠ p.j))

/-- `acc` of 44_peak R157. -/
def assignment (k : CfgRegs) (d : Nat) (ts es : List Cluster) : Nat :=
  greedy (min ts.length es.length) (weightedPairs k d ts es)

/-- `pscore(T, Mt, E, Me)`, result `(score, degenerate)` (44_peak R158, R160). -/
def pscore (k : CfgRegs) (d : Nat) (ts : List Cluster) (mt : Nat) (es : List Cluster) (me : Nat) : Int × Bool :=
  if ts.length = 0 ∨ es.length = 0 ∨ mt = 0 ∨ me = 0 then (0, true)
  else (min (2 ^ 30) (fdiv (shl (assignment k d ts es) 14) ((mt : Int) * me)), false)

/-- The total mass `PIXCNT << 24` (44_peak R156). -/
def totalMass (pixcnt : BitVec 24) : Nat := pixcnt.toNat * 2 ^ 24

/-- `pscore(TCL, PIXCNT << 24, SLOT.CL, SLOT.PIXCNT << 24)` (44_peak R159, 45_assets_match R172). -/
def State.peakScore (s : State) (x : Slot) : Int × Bool :=
  pscore s.cfg s.d s.tcl (totalMass s.pixcnt) x.cl (totalMass x.pixcnt)

/-- `S.PEAK slot` (44_peak R159). -/
def execSPeak (slot : BitVec 16) (s : State) : Result :=
  s.command <|
  s.require s.status.sealed .notSealed (.sPeak slot) <|
  s.require (s.slotValid slot.toNat) .slot (.sPeak slot) <|
  s.require s.status.sValid .seq (.sPeak slot) <|
  s.require (s.status.pkValid && (s.slotAt slot.toNat).pkvalid) .seq (.sPeak slot) <|
  s.setScore (s.peakScore (s.slotAt slot.toNat))

end Sys2Proof.Machine
end

