-- ==== Sys2Proof/Machine/Assets.lean ====
section
/-! DEFINITION. The asset store and best match (45_assets_match): `A.COMMIT` (R170), `A.SEAL` (R171), `MATCH` (R172 to
R175). -/

namespace Sys2Proof.Machine

/-- The slot `A.COMMIT` leaves in place of `old` (45_assets_match R170): the cells below `DEPTH^3` are copied, and the
cluster list only when `PK_VALID = 1` (logs 7, 14). -/
def State.committed (s : State) (old : Slot) : Slot :=
  { valid := true
    ident := s.cfg.assetId
    pixcnt := s.pixcnt
    cells := Sparse.replaceBelow s.ncell s.smooth old.cells
    pkvalid := s.status.pkValid
    cl := if s.status.pkValid then s.tcl else old.cl }

/-- `A.COMMIT slot` (45_assets_match R170). -/
def execACommit (slot : BitVec 16) (s : State) : Result :=
  s.command <|
  s.require (!s.status.sealed) .sealed (.aCommit slot) <|
  s.require (decide (slot.toNat < s.nslot)) .slot (.aCommit slot) <|
  s.require s.status.sValid .seq (.aCommit slot) <|
  s.setSlot slot.toNat (s.committed (s.slotAt slot.toNat))

/-- `A.SEAL` (45_assets_match R171). -/
def execASeal (s : State) : Result := s.command (s.setStatus s.status.seal)

/-- A candidate of `MATCH` with its score (45_assets_match R172). -/
structure Candidate where
  index : Nat
  ident : Word
  score : Int
  degen : Bool
deriving DecidableEq, Repr

/-- The score of a slot under the algorithm `MATCHALG` selects (45_assets_match R172). -/
def State.matchScore (s : State) (x : Slot) : Int × Bool :=
  if s.cfg.matchalg = 0#1 then s.corrScore x else s.peakScore x

/-- Every valid slot with its score (45_assets_match R172). -/
def State.candidates (s : State) : List Candidate :=
  s.validSlots.map fun e =>
    { index := e.1, ident := e.2.ident, score := (s.matchScore e.2).1, degen := (s.matchScore e.2).2 }

/-- `a` wins over `b`: greater score, then lower id (unsigned), then lower index (45_assets_match R173). -/
def Candidate.beats (a b : Candidate) : Bool :=
  decide (b.score < a.score)
    || (decide (b.score = a.score)
        && (decide (a.ident.toNat < b.ident.toNat)
            || (decide (a.ident = b.ident) && decide (a.index < b.index))))

/-- The winner of 45_assets_match R173. -/
def winner : List Candidate → Option Candidate
  | [] => none
  | a :: cs =>
    match winner cs with
    | none => some a
    | some b => if b.beats a then some b else some a

/-- Some valid slot has `PIXCNT > 0` (45_assets_match R174, R175). -/
def State.someAsset (s : State) : Bool := s.validSlots.any fun e => decide (e.2.pixcnt ≠ 0#24)

/-- With `MATCHALG = 1` the tile and every valid slot must have a cluster list (45_assets_match R174). -/
def State.peaksReady (s : State) : Bool :=
  decide (s.cfg.matchalg = 0#1) || (s.status.pkValid && s.validSlots.all fun e => e.2.pkvalid)

/-- `BEST_SLOT`, `BEST_ID`, `BEST_SCORE`, `BEST_VALID` and `DEGEN` for the winner `w` (45_assets_match R174). -/
def State.setBest (s : State) (w : Candidate) : State :=
  (s.setData { s.data with
    bestSlot := BitVec.ofNat 16 w.index, bestId := w.ident, bestScore := scoreWord w.score }).setStatus
    (s.status.matched (s.candidates.any fun c => c.degen))

/-- `MATCH` (45_assets_match R174). A store without a valid slot is the empty set of R175. -/
def execMatchBest (s : State) : Result :=
  s.command <|
  s.require s.status.sealed .notSealed .matchBest <|
  s.require s.status.sValid .seq .matchBest <|
  s.require s.peaksReady .seq .matchBest <|
  s.require s.someAsset .emptySet .matchBest <|
  match winner s.candidates with
  | some w => s.setBest w
  | none => s.raise .emptySet (encode .matchBest)

end Sys2Proof.Machine
end

