-- ==== Sys2Proof/Machine/Color.lean ====
section
/-! DEFINITION. The colour converter, numerics profile P0 (40_color_convert): `rgb2hcl` (R89), `hcl2rgb` (R96), and the
commands `CVT.RGB2HCL` (R90) and `CVT.HCL2RGB` (R97). -/

namespace Sys2Proof.Machine

/-! ## Forward path -/

/-- A row of the forward matrix applied to the linearised channels: `T_i` (40_color_convert R82). -/
def tristimulus (row : Nat × Nat × Nat) (r g b : Nat) : Nat :=
  row.1 * lin r + row.2.1 * lin g + row.2.2 * lin b

/-- `flab(T)` (40_color_convert R83). -/
def flab (t : Nat) : Nat :=
  if 216 * 2 ^ 31 < t * 24389 then icbrt (t * 2 ^ 17)
  else (24389 * t + 432 * 2 ^ 31) / (3132 * 2 ^ 15)

/-- `Lq` (40_color_convert R84). -/
def labL (fy : Nat) : Int := max 0 (116 * (fy : Int) - 16 * 65536)

/-- `aq` (40_color_convert R84). -/
def labA (fx fy : Nat) : Int := 500 * ((fx : Int) - fy)

/-- `bq` (40_color_convert R84). -/
def labB (fy fz : Nat) : Int := 200 * ((fy : Int) - fz)

/-- `L7` (40_color_convert R85). -/
def lightness7 (lq : Int) : Int := min 12800 (asr (lq + 256) 9)

/-- `C7` (40_color_convert R86). -/
def chroma7 (aq bq : Int) : Int := min 32767 (asr ((isqrt (aq * aq + bq * bq).toNat : Int) + 256) 9)

/-- The CORDIC loop in vectoring mode: drive `y` to zero, gathering the angle in `z` (40_color_convert R88). The list is
the rest of `ATAN`, `i` the step's number; the three assignments of a step are simultaneous. -/
def vectoring : List Int → Nat → Int → Int → Int → Int
  | [], _, _, _, z => z
  | t :: ts, i, x, y, z =>
    if 0 ≤ y then vectoring ts (i + 1) (x + asr y i) (y - asr x i) (z + t)
    else vectoring ts (i + 1) (x - asr y i) (y + asr x i) (z - t)

/-- The angle of `(aq, bq)` in units of 2^-16 degree, before it is brought into `[0, 360)` (40_color_convert R88): a
half-turn so that `x ≥ 0`, six guard bits, twenty steps. -/
def rawAngle (aq bq : Int) : Int :=
  if aq < 0 then vectoring atanTable 0 (shl (-aq) 6) (shl (-bq) 6) (180 * deg)
  else vectoring atanTable 0 (shl aq 6) (shl bq 6) 0

/-- `H7` (40_color_convert R88): 0 when the rounded chroma is 0. -/
def hue7 (aq bq : Int) (c7 : Int) : Int :=
  if c7 = 0 then 0 else fmod (asr (fmod (rawAngle aq bq) (360 * deg) + 256) 9) 46080

/-- A colour in raw HCL units, or in Lab with scale 2^16, or in RGB channels: three numbers. -/
abbrev Triple := Int × Int × Int

/-- `(H7, C7, L7)` of the three `f` values (40_color_convert R84 to R88). -/
def hclOfLab (fx fy fz : Nat) : Triple :=
  (hue7 (labA fx fy) (labB fy fz) (chroma7 (labA fx fy) (labB fy fz)),
   chroma7 (labA fx fy) (labB fy fz),
   lightness7 (labL fy))

/-- `rgb2hcl(r, g, b)`, result `(H7, C7, L7)` (40_color_convert R89). -/
def rgb2hcl (r g b : Nat) : Triple :=
  hclOfLab (flab (tristimulus mfX r g b)) (flab (tristimulus mfY r g b)) (flab (tristimulus mfZ r g b))

/-! ## Inverse path -/

/-- The CORDIC loop in rotation mode: drive `z` to zero (40_color_convert R91). -/
def rotation : List Int → Nat → Int → Int → Int → Int × Int
  | [], _, x, y, _ => (x, y)
  | t :: ts, i, x, y, z =>
    if 0 ≤ z then rotation ts (i + 1) (x - asr y i) (y + asr x i) (z - t)
    else rotation ts (i + 1) (x + asr y i) (y - asr x i) (z + t)

/-- Remove the CORDIC gain and go back to scale 2^16 (40_color_convert R91). -/
def ungain (x : Int) : Int := asr (x * kinv + 2 ^ 21) 22

/-- `(aq, bq)` from hue and chroma (40_color_convert R91). -/
def labOfHueChroma (h7 c7 : Int) : Int × Int :=
  let z := shl h7 9
  if 90 * deg < z ∧ z ≤ 270 * deg then
    let p := rotation atanTable 0 (shl c7 15) 0 (z - 180 * deg)
    (ungain (-p.1), ungain (-p.2))
  else
    let p := rotation atanTable 0 (shl c7 15) 0 (if 270 * deg < z then z - 360 * deg else z)
    (ungain p.1, ungain p.2)

/-- `FY` from lightness (40_color_convert R92). -/
def fyOfLight (l7 : Int) : Int := fdiv ((l7 + 2048) * 512 + 58) 116

/-- `finv(F)`, the inverse of `flab`; negative values are kept (40_color_convert R93). -/
def finv (f : Int) : Int :=
  if 6 * 65536 < f * 29 then asr (f * f * f + 2 ^ 16) 17
  else rdiv (108 * (29 * f - 262144) * 32768) 24389

/-- `lin_k`, a linear channel value clamped to the displayable gamut (40_color_convert R94). -/
def linChannel (row : Int × Int × Int) (tx ty tz : Int) : Nat :=
  (clamp (asr (row.1 * tx + row.2.1 * ty + row.2.2 * tz + 2 ^ 30) 31) 0 65536).toNat

/-- The distance of two naturals. -/
def absDiff (a b : Nat) : Nat := (a - b) + (b - a)

/-- The search behind `enc`: go through the rest of `LIN` from index `v`, keeping the first index of least distance. -/
def encFrom (x : Nat) : List Nat → Nat → Nat → Nat → Nat
  | [], _, best, _ => best
  | y :: ys, v, best, dist =>
    if absDiff y x < dist then encFrom x ys (v + 1) v (absDiff y x) else encFrom x ys (v + 1) best dist

/-- `enc(x)`: the `v` that minimises `|LIN[v] - x|`, the smaller of two equally near (40_color_convert R95). -/
def enc (x : Nat) : Nat := encFrom x linTable 0 0 (x + 65537)

/-- The three channels of a Lab colour given by its `f` values (40_color_convert R93 to R95). -/
def rgbOfLab (fx fy fz : Int) : Nat × Nat × Nat :=
  (enc (linChannel miR (finv fx) (finv fy) (finv fz)),
   enc (linChannel miG (finv fx) (finv fy) (finv fz)),
   enc (linChannel miB (finv fx) (finv fy) (finv fz)))

/-- `hcl2rgb(H7, C7, L7)`, result `(r, g, b)` (40_color_convert R92, R96). -/
def hcl2rgb (h7 c7 l7 : Int) : Nat × Nat × Nat :=
  rgbOfLab (fyOfLight l7 + rdiv (labOfHueChroma h7 c7).1 500) (fyOfLight l7)
    (fyOfLight l7 - rdiv (labOfHueChroma h7 c7).2 200)

/-! ## Commands -/

/-- `rgb2hcl` of a pixel word; alpha is ignored (10_state R14, 40_color_convert R90). -/
def pixelHcl (w : Word) : Triple := rgb2hcl (pixR w) (pixG w) (pixB w)

/-- The HCL registers set to a raw colour (40_color_convert R90). -/
def DataRegs.withHcl (x : DataRegs) (p : Triple) : DataRegs :=
  { x with hclH := BitVec.ofInt 16 p.1, hclC := BitVec.ofInt 16 p.2.1, hclL := BitVec.ofInt 16 p.2.2 }

/-- `hcl2rgb` of the HCL registers (40_color_convert R97). -/
def DataRegs.rgb (x : DataRegs) : Nat × Nat × Nat := hcl2rgb x.hclH.toNat x.hclC.toNat x.hclL.toNat

/-- `CVT.RGB2HCL` (40_color_convert R90). -/
def execCvtRgb2hcl (s : State) : Result :=
  s.command (s.setData (s.data.withHcl (pixelHcl s.data.pixin)))

/-- `CVT.HCL2RGB` (40_color_convert R97). -/
def execCvtHcl2rgb (s : State) : Result :=
  s.command <|
  s.require s.data.hclLegal .badOperand .cvtHcl2rgb <|
  s.setData { s.data with pixout := pixelWord s.data.rgb.1 s.data.rgb.2.1 s.data.rgb.2.2 255 }

end Sys2Proof.Machine
end

