-- ==== Sys2Proof/Machine/Quantize.lean ====
section
/-! DEFINITION. The quantizer (41_quantize): the function `quant` (R110) and the command `QUANT` (R111). -/

namespace Sys2Proof.Machine

/-- The bucket of a raw value `v` on a channel of raw maximum `m` at depth `d` (41_quantize R110). -/
def bucket (m v d : Int) : Int := min (d - 1) (fdiv (v * d) m)

/-- `quant(H7, C7, L7, d)`, result `(qh, qc, ql)` (41_quantize R110). -/
def quant (p : Int × Int × Int) (d : Nat) : Nat × Nat × Nat :=
  ((bucket Config.hueMod p.1 d).toNat, (bucket Config.chromaMax p.2.1 d).toNat,
   (bucket Config.lightMax p.2.2 d).toNat)

/-- The colour the HCL registers hold, in raw units (10_state R15). -/
def DataRegs.hcl (x : DataRegs) : Int × Int × Int := (x.hclH.toNat, x.hclC.toNat, x.hclL.toNat)

/-- The word `RED` takes for a reduced colour (41_quantize R111, 10_state R16). -/
def reducedWord (q : Nat × Nat × Nat) : Word := bucketWord q.1 q.2.1 q.2.2

/-- `QUANT` (41_quantize R111). -/
def execQuant (s : State) : Result :=
  s.command <|
  s.require s.data.hclLegal .badOperand .quant <|
  s.setData { s.data with red := reducedWord (quant s.data.hcl s.d) }

end Sys2Proof.Machine
end

