-- ==== Sys2Proof/Machine/Histogram.lean ====
section
/-! DEFINITION. The histogram builder and smoother (42_histogram): `H.CLEAR` (R120), `H.ACC` (R121), the `PIXPUSH` port
(R123), `H.SMOOTH` (R127) with its kernel (R125, R126, R128). -/

namespace Sys2Proof.Machine

/-! ## Build -/

/-- The cell a pixel word falls in at depth `d` (42_histogram R121). -/
def pixelCell (w : Word) (d : Nat) : Nat :=
  cell d (quant (pixelHcl w) d).1 (quant (pixelHcl w) d).2.1 (quant (pixelHcl w) d).2.2

/-- The effect of counting one pixel into cell `i` (42_histogram R121). -/
def State.count (s : State) (i : Nat) : State :=
  ((s.setH (Sparse.write 0#24 s.h i (Sparse.read 0#24 s.h i + 1#24))).setPixcnt (s.pixcnt + 1#24)).setStatus
    s.status.accumulated

/-- Everything `H.ACC` does, its two checks first; shared with `PIXPUSH` (42_histogram R121, R123). -/
def State.accumulate (s : State) : State :=
  s.require s.status.hInit .seq .hAcc <|
  s.require (decide (s.pixcnt.toNat ≠ 2 ^ 24 - 1)) .countOvf .hAcc <|
  s.count (pixelCell s.data.pixin s.d)

/-- `H.CLEAR` (42_histogram R120): the cells below `DEPTH^3` are cleared. -/
def execHClear (s : State) : Result :=
  s.command <|
  ((s.setH (Sparse.replaceBelow s.ncell [] s.h)).setPixcnt 0#24).setStatus s.status.cleared

/-- `H.ACC` (42_histogram R121). -/
def execHAcc (s : State) : Result := s.command s.accumulate

/-- `WR(PIXPUSH, v)` while `ERR = 0`: `PIXIN <- v`, which stays also when the rest faults, then everything `H.ACC` does
(42_histogram R123, 30_encoding R65). -/
def State.pixPush (s : State) (v : Word) : State := (s.setData { s.data with pixin := v }).accumulate

/-! ## Smooth -/

/-- `dest_circ(x, o)`, the hue axis (42_histogram R125). -/
def destCirc (d : Nat) (x o : Int) : Int := fmod (x + o) d

/-- `dest_clamp(x, o)`, the chroma and lightness axes (42_histogram R125). -/
def destClamp (d : Nat) (x o : Int) : Int := clamp (x + o) 0 ((d : Int) - 1)

/-- The offsets `-R, …, +R` (42_histogram R125). -/
def kernelOffsets (r : Nat) : List Int := (List.range (2 * r + 1)).map fun k => (k : Int) - r

/-- `W(x, x2)`: the weight with which source index `x` feeds destination index `x2` (42_histogram R125). -/
def axisWeight (k : CfgRegs) (dest : Int → Int → Int) (x x2 : Nat) : Nat :=
  ((kernelOffsets k.radius).map fun o => if dest x o = (x2 : Int) then k.tap o.natAbs else 0).sum

/-- `Wh` (42_histogram R125). -/
def weightH (k : CfgRegs) (d x x2 : Nat) : Nat := axisWeight k (destCirc d) x x2

/-- `Wc` and `Wl`, the same table (42_histogram R125). -/
def weightCL (k : CfgRegs) (d x x2 : Nat) : Nat := axisWeight k (destClamp d) x x2

/-- `Wh(h, h2) · Wc(c, c2) · Wl(l, l2)` for the source cell `i` and the destination cell `j` (42_histogram R126). -/
def cellWeight (k : CfgRegs) (d i j : Nat) : Nat :=
  weightH k d (cellTriple d i).1 (cellTriple d j).1 * weightCL k d (cellTriple d i).2.1 (cellTriple d j).2.1
    * weightCL k d (cellTriple d i).2.2 (cellTriple d j).2.2

/-- Cell `j` of `smooth(H)`, the exact integer of 42_histogram R126. The sum goes over the cells `H` lists, the others
being 0. -/
def smoothCell (k : CfgRegs) (d : Nat) (h : Sparse (BitVec 24)) (j : Nat) : Nat :=
  ((h.filter fun e => decide (e.1 < d * d * d)).map fun e => e.2.toNat * cellWeight k d e.1 j).sum

/-- `smooth(H)`, its `d^3` cells in 48 bits (42_histogram R126, 10_state R23; log 10). -/
def smoothed (k : CfgRegs) (d : Nat) (h : Sparse (BitVec 24)) : Sparse (BitVec 48) :=
  Sparse.ofFn 0#48 (d * d * d) fun j => BitVec.ofNat 48 (smoothCell k d h j)

/-- `H.SMOOTH` (42_histogram R127). -/
def execHSmooth (s : State) : Result :=
  s.command <|
  s.require s.status.hInit .seq .hSmooth <|
  s.require (decide (s.cfg.tapSum = Config.tapOne)) .kernel .hSmooth <|
  (s.setSmooth (Sparse.replaceBelow s.ncell (smoothed s.cfg s.d s.h) s.smooth)).setStatus s.status.smoothed

end Sys2Proof.Machine
end

