-- ==== Sys2Proof/Machine/System.lean ====
section
/-! DEFINITION. The system commands (46_system): `NOP` (R185) and `SRESET` (R186). -/

namespace Sys2Proof.Machine

/-- `NOP`: no register, flag or memory changes, whether or not a fault is latched (46_system R185). -/
def execNop (s : State) : Result := .next s

/-- `SRESET`: the reset state, also while `ERR = 1` (46_system R186, 60_exceptions R193 step 1). -/
def execSreset (s : State) : Result := .next s.toReset

end Sys2Proof.Machine
end

