-- ==== Sys2Proof/Machine/Dispatch.lean ====
section
/-! DEFINITION. The meaning of every command: what the write of its word to `CMD` does (30_encoding R60, 60_exceptions
R193). One arm per constructor. -/

namespace Sys2Proof.Machine

def exec (i : Instr) (s : State) : Host.Outcome State Fault Refusal :=
  match i with
  | .nop => Sys2Proof.Machine.execNop s
  | .sreset => Sys2Proof.Machine.execSreset s
  | .cvtRgb2hcl => Sys2Proof.Machine.execCvtRgb2hcl s
  | .cvtHcl2rgb => Sys2Proof.Machine.execCvtHcl2rgb s
  | .quant => Sys2Proof.Machine.execQuant s
  | .hClear => Sys2Proof.Machine.execHClear s
  | .hAcc => Sys2Proof.Machine.execHAcc s
  | .hSmooth => Sys2Proof.Machine.execHSmooth s
  | .pExtract => Sys2Proof.Machine.execPExtract s
  | .aCommit slot => Sys2Proof.Machine.execACommit slot s
  | .aSeal => Sys2Proof.Machine.execASeal s
  | .sCorr slot => Sys2Proof.Machine.execSCorr slot s
  | .sPeak slot => Sys2Proof.Machine.execSPeak slot s
  | .matchBest => Sys2Proof.Machine.execMatchBest s

end Sys2Proof.Machine
end

