-- ==== Sys2Proof/Machine/Window.lean ====
section
/-! DEFINITION. What the host reads: the read-back windows (20_memory R49 to R51) and every register of the window
(10_state R11, R13, R18, R20, R21; 20_memory R45, R46). -/

namespace Sys2Proof.Machine

/-- The selected cell value `v` of the histogram window, 48 bits (20_memory R49). -/
def State.histWindow (s : State) : BitVec 48 :=
  if s.win.kind = 0 ∧ s.status.hInit ∧ s.win.haddr.toNat < s.ncell then
    (Sparse.read 0#24 s.h s.win.haddr.toNat).setWidth 48
  else if s.win.kind = 1 ∧ s.status.sValid ∧ s.win.haddr.toNat < s.ncell then
    Sparse.read 0#48 s.smooth s.win.haddr.toNat
  else if s.win.kind = 2 ∧ s.slotValid s.win.hslot ∧ s.win.haddr.toNat < s.ncell then
    Sparse.read 0#48 (s.slotAt s.win.hslot).cells s.win.haddr.toNat
  else 0#48

/-- The selected list of the cluster window (20_memory R50). -/
def State.clusterList (s : State) : List Cluster :=
  if s.win.clSrc then
    if s.slotValid s.win.clSlot && (s.slotAt s.win.clSlot).pkvalid then (s.slotAt s.win.clSlot).cl else []
  else if s.status.pkValid then s.tcl else []

/-- The selected entry of the cluster window, if there is one (20_memory R50). -/
def State.clusterEntry (s : State) : Option Cluster := s.clusterList[s.win.clIndex]?

/-- `RD(CL_POS)` of an entry (20_memory R50). -/
def Cluster.posWord (x : Cluster) : Word := bucketWord x.h.toNat x.c.toNat x.l.toNat

/-- The low and high words of a 48-bit quantity (20_memory R42 b). -/
def loWord (v : BitVec 48) : Word := v.extractLsb' 0 32
def hiWord (v : BitVec 48) : Word := (v.extractLsb' 32 16).setWidth 32

/-- `RD(SL_STAT)` (20_memory R51). -/
def State.slotStat (s : State) : Word :=
  if s.slotValid s.win.hslot then
    if (s.slotAt s.win.hslot).pkvalid then
      1#32 ||| 2#32 ||| (BitVec.ofNat 32 (s.slotAt s.win.hslot).cl.length <<< 8)
    else 1#32
  else 0#32

/-- `RD(SL_ID)` (20_memory R51). -/
def State.slotId (s : State) : Word :=
  if s.slotValid s.win.hslot then (s.slotAt s.win.hslot).ident else 0#32

/-- `RD(SL_PIXCNT)` (20_memory R51). -/
def State.slotPixcnt (s : State) : Word :=
  if s.slotValid s.win.hslot then (s.slotAt s.win.hslot).pixcnt.setWidth 32 else 0#32

/-- The value a register reads (20_memory R41). A write-only register reads 0 (R46); bits above a field read zero
(10_state R15, R18, R21). -/
def State.readReg (s : State) : Reg → Word
  | .id => Config.ident
  | .cmd => 0#32
  | .status => s.status.word
  | .errcode => s.status.errCode
  | .errinfo => s.status.errInfo
  | .pixpush => 0#32
  | .pixin => s.data.pixin
  | .pixout => s.data.pixout
  | .hclH => s.data.hclH.setWidth 32
  | .hclC => s.data.hclC.setWidth 32
  | .hclL => s.data.hclL.setWidth 32
  | .red => s.data.red
  | .score => s.data.score
  | .bestSlot => s.data.bestSlot.setWidth 32
  | .bestId => s.data.bestId
  | .bestScore => s.data.bestScore
  | .depth => s.cfg.depth.setWidth 32
  | .sradius => s.cfg.sradius.setWidth 32
  | .ktap0 => s.cfg.ktap0.setWidth 32
  | .ktap1 => s.cfg.ktap1.setWidth 32
  | .ktap2 => s.cfg.ktap2.setWidth 32
  | .ktap3 => s.cfg.ktap3.setWidth 32
  | .ktap4 => s.cfg.ktap4.setWidth 32
  | .matchalg => s.cfg.matchalg.setWidth 32
  | .maxpeaks => s.cfg.maxpeaks.setWidth 32
  | .pdsH => s.cfg.pdsH.setWidth 32
  | .pdsC => s.cfg.pdsC.setWidth 32
  | .pdsL => s.cfg.pdsL.setWidth 32
  | .assetId => s.cfg.assetId
  | .pixcnt => s.pixcnt.setWidth 32
  | .hsel => s.win.hsel
  | .haddr => s.win.haddr.setWidth 32
  | .hdataLo => loWord s.histWindow
  | .hdataHi => hiWord s.histWindow
  | .clsel => s.win.clsel
  | .clN => BitVec.ofNat 32 s.clusterList.length
  | .clPos => match s.clusterEntry with
    | some x => x.posWord
    | none => 0#32
  | .clMassLo => match s.clusterEntry with
    | some x => loWord x.mass
    | none => 0#32
  | .clMassHi => match s.clusterEntry with
    | some x => hiWord x.mass
    | none => 0#32
  | .nslots => BitVec.ofNat 32 s.nslot
  | .slStat => s.slotStat
  | .slId => s.slotId
  | .slPixcnt => s.slotPixcnt

/-- `RD(off)`: an unmapped offset reads 0 (20_memory R46). -/
def State.readAt (s : State) (off : Nat) : Word :=
  match Reg.atOffset off with
  | some r => s.readReg r
  | none => 0#32

end Sys2Proof.Machine
end

