-- ==== Sys2Proof/Machine/Access.lean ====
section
/-! DEFINITION. One host access (00_scope R5): reads, register writes (10_state R15, R18 to R21; 20_memory R47, R48), the
`PIXPUSH` port, and the `CMD` write that runs a command (60_exceptions R193). -/

namespace Sys2Proof.Machine

/-- `raise CODE(offset)` for a register write (60_exceptions R191). -/
def State.raiseAt (s : State) (c : ErrCode) (off : Nat) : State := s.raise c (BitVec.ofNat 32 off)

/-- A write of `DEPTH` with a legal value (10_state R19): no change for the same value, `ERR_CFG_LOCKED` for another one
while locked, else the new depth with `H_INIT <- 0`. -/
def State.writeDepth (s : State) (v : Word) : State :=
  if v = s.cfg.depth.setWidth 32 then s
  else if s.locked then s.raiseAt .cfgLocked Reg.depth.offset
  else (s.setCfg { s.cfg with depth := v.setWidth 6 }).setStatus s.status.uncleared

/-- Install a value that has passed the legality check (20_memory R48). The HCL registers keep the low 16 bits (10_state
R15). Read-only registers and `CMD` are not installed here. -/
def State.install (s : State) : Reg → Word → State
  | .pixpush, v => s.pixPush v
  | .pixin, v => s.setData { s.data with pixin := v }
  | .hclH, v => s.setData { s.data with hclH := v.setWidth 16 }
  | .hclC, v => s.setData { s.data with hclC := v.setWidth 16 }
  | .hclL, v => s.setData { s.data with hclL := v.setWidth 16 }
  | .depth, v => s.writeDepth v
  | .sradius, v => s.setCfg { s.cfg with sradius := v.setWidth 3 }
  | .ktap0, v => s.setCfg { s.cfg with ktap0 := v.setWidth 9 }
  | .ktap1, v => s.setCfg { s.cfg with ktap1 := v.setWidth 9 }
  | .ktap2, v => s.setCfg { s.cfg with ktap2 := v.setWidth 9 }
  | .ktap3, v => s.setCfg { s.cfg with ktap3 := v.setWidth 9 }
  | .ktap4, v => s.setCfg { s.cfg with ktap4 := v.setWidth 9 }
  | .matchalg, v => s.setCfg { s.cfg with matchalg := v.setWidth 1 }
  | .maxpeaks, v => s.setCfg { s.cfg with maxpeaks := v.setWidth 5 }
  | .pdsH, v => s.setCfg { s.cfg with pdsH := v.setWidth 8 }
  | .pdsC, v => s.setCfg { s.cfg with pdsC := v.setWidth 8 }
  | .pdsL, v => s.setCfg { s.cfg with pdsL := v.setWidth 8 }
  | .assetId, v => s.setCfg { s.cfg with assetId := v }
  | .hsel, v => s.setWin { s.win with hsel := v }
  | .haddr, v => s.setWin { s.win with haddr := v.setWidth 15 }
  | .clsel, v => s.setWin { s.win with clsel := v }
  | _, _ => s

/-- A write of a register other than `CMD` while `ERR = 0`: a read-only register faults (20_memory R47), a value outside
the legal set faults and leaves the register unchanged (10_state R18, R20), else the value is installed. -/
def State.writeReg (s : State) (r : Reg) (v : Word) : State :=
  if r.mode = .ro then s.raiseAt .access r.offset
  else if r.legal v then s.install r v
  else s.raiseAt .badCfg r.offset

/-- A write at an offset that holds no register, while `ERR = 0` (20_memory R47). -/
def State.writeUnmapped (s : State) (off : Nat) : State := s.raiseAt .access off

/-- A write of `CMD` (60_exceptions R193). `SRESET` is the one command that passes the `ERR` gate, which every meaning
carries itself (log 12); an illegal word raises `ERR_ILLEGAL_CMD` with the word, or is dropped while `ERR = 1` (30_encoding
R63, 60_exceptions R194). -/
def State.writeCmd (s : State) (w : Word) : Result :=
  match decode w with
  | .ok i => exec i s
  | .error _ => s.command (s.raise .illegalCmd w)

/-- Why an access is not part of the interface, if it is not (20_memory R40, R43; log 8). -/
def Access.refusal (a : Access) : Option Refusal :=
  if a.width ≠ .word then some .narrowAccess
  else if 256 ≤ a.off then some .outsideWindow
  else if a.off % 4 ≠ 0 then some .misalignedAccess
  else none

/-- An access of the interface: a read returns the register's value and changes nothing else (20_memory R45); a write
goes through the `ERR` gate (60_exceptions R194) to the register at its offset. -/
def State.perform (s : State) : Access → Result
  | .rd _ off => .next (s.setRdata (s.readAt off))
  | .wr _ off v =>
    match Reg.atOffset off with
    | some .cmd => s.writeCmd v
    | some r => s.command (s.writeReg r v)
    | none => s.command (s.writeUnmapped off)

/-- `step : State × Access → State × Value` of 00_scope R5, with the Value of a read in `rdata` (log 2); an access that is
not part of the interface has no step (20_memory R43). -/
def State.access (s : State) (a : Access) : Result :=
  match a.refusal with
  | some r => .refused r
  | none => s.perform a

end Sys2Proof.Machine
end

