-- ==== Sys2Proof/Machine/Step.lean ====
section
/-! DEFINITION. One step of the machine: the CME performs the host's oldest pending access (00_scope R5, 20_memory R53).
There is no program counter and no instruction fetch (10_state R12): a command is the value of a `CMD` write. -/

namespace Sys2Proof.Machine

/-- The next access, to completion. With none pending nothing changes: the engine never moves on its own (00_scope R5). -/
def step (s : State) : Host.Outcome State Fault Refusal :=
  match s.pending with
  | [] => .next s
  | a :: rest => (s.setPending rest).access a

/-- The host issues the write of a command word to `CMD` as the very next access (log 1). -/
def State.withFetchWord (s : State) (nbits w : Nat) : State :=
  s.setPending (.wr .word 0x04 (BitVec.ofNat 32 (w % 2 ^ nbits)) :: s.pending)

end Sys2Proof.Machine
end

