-- ==== Sys2Proof/Machine/Script.lean ====
section
/-! DEFINITION. Host scripts (30_encoding R66, R67) as lists of accesses: a script line is exactly one access, and a
pseudo-instruction is the list it expands to; with the host's sequences for loading an asset and matching a tile (70
R224, R225). Log 17. -/

namespace Sys2Proof.Machine

/-- `WR <reg>, <value>` (30_encoding R66). -/
def Script.wr (r : Reg) (v : Word) : Access := .wr .word r.offset v

/-- `RD <reg>` (30_encoding R66). -/
def Script.rd (r : Reg) : Access := .rd .word r.offset

/-- `CMD <mnemonic> [<slot>]` (30_encoding R66). -/
def Script.cmd (i : Instr) : Access := Script.wr .cmd (encode i)

/-- `rgba(r,g,b,a)` (30_encoding R66). -/
def Script.rgba (r g b a : Nat) : Word := pixelWord r g b a

/-- `rgb(r,g,b)` (30_encoding R66). -/
def Script.rgb (r g b : Nat) : Word := Script.rgba r g b 255

/-- `PUSH <pixel>` (30_encoding R67). -/
def Script.push (p : Word) : List Access := [Script.wr .pixpush p]

/-- `PUSHN <n>, <pixel>` (30_encoding R67). -/
def Script.pushn (n : Nat) (p : Word) : List Access := List.replicate n (Script.wr .pixpush p)

/-- `KERNEL <r>, <k0> [, <k1> ... <k4>]` (30_encoding R67): at most four further taps. -/
def Script.kernel (r k0 : Word) (ks : List Word) : List Access :=
  Script.wr .sradius r :: Script.wr .ktap0 k0 ::
    List.zipWith Script.wr [Reg.ktap1, Reg.ktap2, Reg.ktap3, Reg.ktap4] ks

/-- `CONVERT <pixel>` (30_encoding R67). -/
def Script.convert (p : Word) : List Access := [Script.wr .pixin p, Script.cmd .cvtRgb2hcl]

/-- `ASSET <slot>, <id>` (30_encoding R67). -/
def Script.asset (slot : BitVec 16) (ident : Word) : List Access :=
  [Script.wr .assetId ident, Script.cmd .hSmooth, Script.cmd .pExtract, Script.cmd (.aCommit slot)]

/-- `TILEMATCH` (30_encoding R67). -/
def Script.tileMatch : List Access := [Script.cmd .hSmooth, Script.cmd .pExtract, Script.cmd .matchBest]

/-- Loading one asset: clear, push every pixel of its bitmap, then `ASSET` (70 R224). -/
def Script.loadAsset (slot : BitVec 16) (ident : Word) (pixels : List Word) : List Access :=
  Script.cmd .hClear :: (pixels.flatMap Script.push ++ Script.asset slot ident)

/-- Matching one tile: clear, push every pixel, `TILEMATCH`, then read the outcome (70 R225). -/
def Script.matchTile (pixels : List Word) : List Access :=
  Script.cmd .hClear :: (pixels.flatMap Script.push ++ Script.tileMatch ++
    [Script.rd .status, Script.rd .bestId, Script.rd .bestScore, Script.rd .bestSlot])

/-- The left fold of the access step over a list of accesses (20_memory R53). -/
def State.runAccesses (s : State) : List Access → Result
  | [] => .next s
  | a :: as =>
    match s.access a with
    | .next t => t.runAccesses as
    | .fault r => .fault r
    | .refused r => .refused r

end Sys2Proof.Machine
end

