-- ==== Sys2Proof/Safety.lean ====
section
/-! DEFINITION. The invariants of the CME in the terms the statements use, and the states a host can bring it to. -/

namespace Sys2Proof.Machine

/-- The invariant of the valid flags, "true in every reachable state" (10_state R26). -/
structure State.FlagsOk (s : State) : Prop where
  pk_s : s.status.pkValid = true → s.status.sValid = true
  s_h : s.status.sValid = true → s.status.hInit = true
  h_cnt : s.status.hInit = false → s.pixcnt = 0#24
  slot_pk : ∀ k, (s.slotAt k).pkvalid = true → (s.slotAt k).valid = true

/-- The configuration and window registers hold legal values (10_state R18, R20): an illegal value is never installed. -/
structure State.RegsOk (s : State) : Prop where
  depth_ge : 2 ≤ s.d
  depth_le : s.d ≤ 32
  radius_le : s.cfg.radius ≤ 4
  taps_le : ∀ j, s.cfg.tap j ≤ 256
  peaks_ge : 1 ≤ s.cfg.maxpeaks.toNat
  peaks_le : s.cfg.maxpeaks.toNat ≤ 16
  hsel_ok : hselLegal s.win.hsel = true
  clsel_ok : clselLegal s.win.clsel = true

/-- The memories keep their canonical form, the cluster lists their bound `PKMAX`, and only existing slots are listed
(10_state R22 to R25; log 4). -/
structure State.MemOk (s : State) : Prop where
  h_wf : Sparse.wf 0#24 s.h = true
  s_wf : Sparse.wf 0#48 s.smooth = true
  slots_wf : Sparse.wf Slot.empty s.slots = true
  slots_lt : ∀ e ∈ s.slots, e.1 < s.nslot
  cells_wf : ∀ k, Sparse.wf 0#48 (s.slotAt k).cells = true
  tcl_le : s.tcl.length ≤ 16
  cl_le : ∀ k, (s.slotAt k).cl.length ≤ 16

/-- While `H_INIT = 1` the cells of `H` add up to `PIXCNT` (42_histogram R124). -/
def State.CountsOk (s : State) : Prop :=
  s.status.hInit = true → Sparse.total s.ncell s.h = s.pixcnt.toNat

/-- While `S_VALID = 1` the cells of `S` add up to `PIXCNT · 2^24`, and so do those of every valid slot with its own count
(42_histogram R129, 44_peak R156). The masses of an observable cluster list, which are distinct cells of such an array, add up
to at most that total (44_peak R158). -/
structure State.MassOk (s : State) : Prop where
  tile : s.status.sValid = true → Sparse.total s.ncell s.smooth = s.pixcnt.toNat * 2 ^ 24
  slot : ∀ k, s.slotValid k = true → Sparse.total s.ncell (s.slotAt k).cells = (s.slotAt k).pixcnt.toNat * 2 ^ 24
  tile_clusters : s.status.pkValid = true → (s.tcl.map fun x => x.mass.toNat).sum ≤ s.pixcnt.toNat * 2 ^ 24
  slot_clusters : ∀ k, s.slotValid k = true → (s.slotAt k).pkvalid = true →
    ((s.slotAt k).cl.map fun x => x.mass.toNat).sum ≤ (s.slotAt k).pixcnt.toNat * 2 ^ 24

/-- The fault record: empty while `ERR = 0`, one of the twelve codes while `ERR = 1` (10_state R21, 60_exceptions R192). -/
structure State.FaultOk (s : State) : Prop where
  clear : s.status.err = false → s.status.errCode = 0#32 ∧ s.status.errInfo = 0#32
  latched : s.status.err = true → 1 ≤ s.status.errCode.toNat ∧ s.status.errCode.toNat ≤ 12

/-- The reserved bits of `RED` read zero and the scores lie in `[-2^30, 2^30]` (10_state R16, R17). -/
structure State.ResultsOk (s : State) : Prop where
  red_bits : s.data.red &&& 0xFFE0E0E0#32 = 0#32
  score_ge : -(2 ^ 30) ≤ s.data.score.toInt
  score_le : s.data.score.toInt ≤ 2 ^ 30
  best_ge : -(2 ^ 30) ≤ s.data.bestScore.toInt
  best_le : s.data.bestScore.toInt ≤ 2 ^ 30

/-- Every cluster that can be observed lies at a bucket below `DEPTH` (10_state R24, R19). -/
structure State.ClustersOk (s : State) : Prop where
  tile : s.status.pkValid = true → ∀ x ∈ s.tcl, x.h.toNat < s.d ∧ x.c.toNat < s.d ∧ x.l.toNat < s.d
  slot : ∀ k, s.slotValid k = true → (s.slotAt k).pkvalid = true →
    ∀ x ∈ (s.slotAt k).cl, x.h.toNat < s.d ∧ x.c.toNat < s.d ∧ x.l.toNat < s.d

/-- The states a host can bring a CME of any `NSLOT` to: from reset, by issuing accesses at any time and letting the CME
perform them (00_scope R5; log 1). A refused access leaves no next state and so leads nowhere. -/
inductive Reachable : State → Prop where
  | reset (n : Fin 65536) : Reachable (State.resetWith n)
  | issue (s : State) (as : List Access) : Reachable s → Reachable (s.setPending as)
  | step (s t : State) : Reachable s → step s = .next t → Reachable t

/-- The same CME state: equal in everything but the host's side of the interface (00_scope R5; logs 1, 2). -/
def State.SameCme (s t : State) : Prop :=
  (s.setPending []).setRdata 0#32 = (t.setPending []).setRdata 0#32

/-- The access is the write of the `SRESET` word to `CMD` (60_exceptions R194). -/
def Access.isSreset (a : Access) : Prop := a = .wr .word 0x04 0x01000000#32

end Sys2Proof.Machine
end

