-- ==== Sys2Proof/Certificates/Slice0/Obligations.lean ====
section
/-! DEFINITION. The statements for the provers. Each docstring names the rule of the spec it formalises. -/

open Sys2Proof Sys2Proof.Machine

/-! ## Encoding -/

/-- 30_encoding R60 to R62: no bit of a command's word is dropped. -/
def Obligations.DecodeOfEncodeIsTheCommand : Prop :=
  ∀ i : Instr, i.wellFormed = true → decode (encode i) = .ok i

/-- 30_encoding R62 to R64, 60_exceptions R193: every word selects exactly one row of the opcode map and decodes to that
row's command, whose word it is; or it selects no row, and writing it to `CMD` raises `ERR_ILLEGAL_CMD` with the word and changes nothing
else. -/
def Obligations.EveryWordIsOneRowOrRaisesIllegal : Prop :=
  ∀ w : Word,
    (∃ i r, decode w = .ok i ∧ opcodeMap.filter (fun r => r.selects w) = [r] ∧ r.mnemonic = i.mnemonic ∧ encode i = w) ∨
    ((∀ r ∈ opcodeMap, w &&& r.mask ≠ r.pattern) ∧ ∀ s : State, s.status.err = false →
      s.access (.wr .word 0x04 w) = .next (s.setStatus
        { s.status with err := true, errCode := 1#32, errInfo := w }))

/-- 30_encoding R62: words written out from the rows. -/
def Obligations.WordsOfTheMapDecode : Prop :=
  decode 0x00000000#32 = .ok .nop ∧ decode 0x12000000#32 = .ok .quant ∧ decode 0x22000000#32 = .ok .hSmooth ∧
  decode 0x30000000#32 = .ok .pExtract ∧ decode 0x40000046#32 = .ok (.aCommit 70#16) ∧
  decode 0x5000FFFF#32 = .ok (.sCorr 65535#16) ∧ decode 0x51000002#32 = .ok (.sPeak 2#16) ∧
  decode 0x52000000#32 = .ok .matchBest

/-! ## The step -/

/-- 00_scope R5, 30_encoding R60: when the oldest pending access writes a command word to `CMD`, the step is that command's
meaning, with the access taken off the list. The list of pending accesses is the model's own (log 1). -/
def Obligations.StepRunsTheDecodedCommand : Prop :=
  ∀ (s : State) (w : Word) (i : Instr) (rest : List Access), s.pending = .wr .word 0x04 w :: rest →
    decode w = .ok i → i.wellFormed = true → step s = exec i (s.setPending rest)

/-- 20_memory R53: the machine is the left fold of the access step over the host's accesses, in the host's order; with no
access pending nothing changes (00_scope R5; that such a step exists is the model's choice, log 1). -/
def Obligations.RunIsLeftFoldOfAccesses : Prop :=
  (∀ s : State, s.pending = [] → step s = .next s) ∧
  ∀ (as : List Access) (s : State), (∀ a ∈ as, a.wellFormed = true) →
    ∃ t, State.runAccesses (s.setPending []) as = .next t ∧
      Host.Core.run Sys2Proof.core as.length (s.setPending as) = .next t

/-- 20_memory R40, R43: an access that is not 32 bits wide at a multiple of 4 inside the window has no step; every other
access has one. The names of the refusals are the model's (log 8). -/
def Obligations.OnlyWindowWordAccessesStep : Prop :=
  ∀ (s : State) (w : Width) (off : Nat) (v : Word),
    (w = .word ∧ off % 4 = 0 ∧ off < 256 →
      (∃ t, s.access (.rd w off) = .next t) ∧ (∃ t, s.access (.wr w off v) = .next t)) ∧
    (¬ (w = .word ∧ off % 4 = 0 ∧ off < 256) →
      (∃ r, s.access (.rd w off) = .refused r) ∧ (∃ r, s.access (.wr w off v) = .refused r))

/-! ## System commands and reset -/

/-- 46_system R185. -/
def Obligations.NopChangesNothing : Prop := ∀ s : State, exec .nop s = .next s

/-- 70_reset_and_hazards R220: what power-on reset and `SRESET` leave, the latter from every state, also a faulted one;
the parameter `NSLOT` stays (10_state R28). `TCLN` is the length of `tcl` (log 6). -/
def Obligations.ResetLeavesTheResetValues : Prop :=
  (∀ s : State, ∃ t, exec .sreset s = .next t ∧ t.nslot = s.nslot) ∧
  ∀ (s t : State) (n : Fin 65536), exec .sreset s = .next t ∨ t = State.resetWith n →
    t.status = { err := false, sealed := false, hInit := false, sValid := false, pkValid := false, degen := false,
                 bestValid := false, errCode := 0#32, errInfo := 0#32 } ∧
    t.data = { pixin := 0#32, pixout := 0#32, hclH := 0#16, hclC := 0#16, hclL := 0#16, red := 0#32, score := 0#32,
               bestSlot := 0#16, bestId := 0#32, bestScore := 0#32 } ∧
    t.cfg = { depth := 16#6, sradius := 1#3, ktap0 := 128#9, ktap1 := 64#9, ktap2 := 0#9, ktap3 := 0#9, ktap4 := 0#9,
              matchalg := 0#1, maxpeaks := 8#5, pdsH := 16#8, pdsC := 16#8, pdsL := 16#8, assetId := 0#32 } ∧
    t.win = { hsel := 0#32, haddr := 0#15, clsel := 0#32 } ∧ t.pixcnt = 0#24 ∧ t.tcl.length = 0 ∧
    ∀ k, (t.slotAt k).valid = false ∧ (t.slotAt k).pkvalid = false

/-! ## Colour converter -/

/-- 40_color_convert R90, 10_state R14, R15: `CVT.RGB2HCL` writes the three HCL registers, and what it writes is a legal
operand, held without loss. Alpha plays no part. -/
def Obligations.Rgb2HclWritesTheColour : Prop :=
  ∀ s : State, s.status.err = false →
    ∃ t, exec .cvtRgb2hcl s = .next t ∧
      t = s.setData { s.data with hclH := t.data.hclH, hclC := t.data.hclC, hclL := t.data.hclL } ∧
      ((t.data.hclH.toNat : Int), (t.data.hclC.toNat : Int), (t.data.hclL.toNat : Int)) =
        rgb2hcl (s.data.pixin.toNat % 256) (s.data.pixin.toNat / 256 % 256) (s.data.pixin.toNat / 65536 % 256) ∧
      t.data.hclH.toNat ≤ 46079 ∧ t.data.hclC.toNat ≤ 32767 ∧ t.data.hclL.toNat ≤ 12800

/-- 40_color_convert R97: `CVT.HCL2RGB` on a legal colour writes `PIXOUT`, with 255 in the alpha byte. -/
def Obligations.Hcl2RgbWritesThePixel : Prop :=
  ∀ s : State, s.status.err = false →
    s.data.hclH.toNat ≤ 46079 → s.data.hclC.toNat ≤ 32767 → s.data.hclL.toNat ≤ 12800 →
    ∃ t r g b, exec .cvtHcl2rgb s = .next t ∧ t = s.setData { s.data with pixout := t.data.pixout } ∧
      hcl2rgb s.data.hclH.toNat s.data.hclC.toNat s.data.hclL.toNat = (r, g, b) ∧ r ≤ 255 ∧ g ≤ 255 ∧ b ≤ 255 ∧
      t.data.pixout.toNat = r + g * 2 ^ 8 + b * 2 ^ 16 + 255 * 2 ^ 24

/-- 40_color_convert R97, 41_quantize R111: an operand outside the ranges raises `ERR_BAD_OPERAND` with the command word,
and changes nothing else. -/
def Obligations.IllegalColourRaisesBadOperand : Prop :=
  ∀ s : State, s.status.err = false →
    46079 < s.data.hclH.toNat ∨ 32767 < s.data.hclC.toNat ∨ 12800 < s.data.hclL.toNat →
    exec .cvtHcl2rgb s = .next (s.setStatus { s.status with err := true, errCode := 11#32, errInfo := 0x11000000#32 }) ∧
    exec .quant s = .next (s.setStatus { s.status with err := true, errCode := 11#32, errInfo := 0x12000000#32 })

/-- 40_color_convert R82, R88, R99: a grey has chroma and hue exactly 0. -/
def Obligations.GreysHaveNoChromaAndHueZero : Prop :=
  ∀ v : Nat, v ≤ 255 → (rgb2hcl v v v).1 = 0 ∧ (rgb2hcl v v v).2.1 = 0 ∧
    (rgb2hcl v v v).2.2 = lightness7 (labL (flab (32768 * lin v)))

/-- 40_color_convert R83: the two branches of `flab`, its ends, the switch, and that it never decreases. -/
def Obligations.FlabBranchesAndMonotone : Prop :=
  (∀ t : Nat, t ≤ 2 ^ 31 → 216 * 2 ^ 31 < t * 24389 →
    flab t ^ 3 ≤ t * 2 ^ 17 ∧ t * 2 ^ 17 < (flab t + 1) ^ 3) ∧
  (∀ t : Nat, ¬ 216 * 2 ^ 31 < t * 24389 →
    flab t * (3132 * 2 ^ 15) ≤ 24389 * t + 432 * 2 ^ 31 ∧ 24389 * t + 432 * 2 ^ 31 < (flab t + 1) * (3132 * 2 ^ 15)) ∧
  flab 0 = 9039 ∧ flab (2 ^ 31) = 65536 ∧ flab 19019085 = 13559 ∧ flab 19019086 = 13559 ∧
  ∀ a b : Nat, a ≤ b → b ≤ 2 ^ 31 → flab a ≤ flab b

/-- 40_color_convert R95: `enc` is the nearest entry of `LIN`, the smaller of two equally near; it inverts `LIN` and never
decreases. -/
def Obligations.EncIsTheNearestEntry : Prop :=
  (∀ x : Nat, x ≤ 65536 → enc x ≤ 255 ∧
    (∀ v, v ≤ 255 → absDiff (lin (enc x)) x ≤ absDiff (lin v) x) ∧
    (∀ v, v < enc x → absDiff (lin (enc x)) x < absDiff (lin v) x)) ∧
  (∀ v, v ≤ 255 → enc (lin v) = v) ∧
  ∀ x y : Nat, x ≤ y → y ≤ 65536 → enc x ≤ enc y

/-! ## Quantizer -/

/-- 41_quantize R110, R111, 10_state R16: `QUANT` on a legal colour at a legal depth writes `RED`. -/
def Obligations.QuantWritesTheBuckets : Prop :=
  ∀ s : State, s.status.err = false → 2 ≤ s.d → s.d ≤ 32 →
    s.data.hclH.toNat ≤ 46079 → s.data.hclC.toNat ≤ 32767 → s.data.hclL.toNat ≤ 12800 →
    ∃ t, exec .quant s = .next t ∧ t = s.setData { s.data with red := t.data.red } ∧
      t.data.red.toNat = (s.data.hclH.toNat * s.d / 46080) * 2 ^ 16
        + min (s.d - 1) (s.data.hclC.toNat * s.d / 17152) * 2 ^ 8 + min (s.d - 1) (s.data.hclL.toNat * s.d / 12800)

/-- 41_quantize R112: quantization is monotonic in each channel. -/
def Obligations.QuantizationIsMonotonic : Prop :=
  ∀ (p q : Int × Int × Int) (d : Nat), 2 ≤ d → d ≤ 32 →
    (p.1 ≤ q.1 → (quant p d).1 ≤ (quant q d).1) ∧
    (p.2.1 ≤ q.2.1 → (quant p d).2.1 ≤ (quant q d).2.1) ∧
    (p.2.2 ≤ q.2.2 → (quant p d).2.2 ≤ (quant q d).2.2)

/-! ## Histogram builder and smoother -/

/-- 42_histogram R120: `H.CLEAR`. That cells at or above `DEPTH^3` stay is the model's choice (log 14). -/
def Obligations.HClearEmptiesTheTile : Prop :=
  ∀ s : State, s.status.err = false →
    ∃ t, exec .hClear s = .next t ∧
      t = ((s.setH t.h).setPixcnt 0#24).setStatus { s.status with hInit := true, sValid := false, pkValid := false } ∧
      ∀ i, Sparse.read 0#24 t.h i = if i < s.ncell then 0#24 else Sparse.read 0#24 s.h i

/-- 42_histogram R121, R122: `H.ACC` counts the pixel into its cell, whatever its alpha. -/
def Obligations.HAccCountsThePixel : Prop :=
  ∀ s : State, s.status.err = false → s.status.hInit = true → s.pixcnt.toNat ≠ 2 ^ 24 - 1 →
    Sparse.wf 0#24 s.h = true →
    ∃ t, exec .hAcc s = .next t ∧
      t = ((s.setH t.h).setPixcnt t.pixcnt).setStatus { s.status with sValid := false, pkValid := false } ∧
      t.pixcnt.toNat = s.pixcnt.toNat + 1 ∧
      (∀ i, Sparse.read 0#24 t.h i =
        if i = pixelCell s.data.pixin s.d then Sparse.read 0#24 s.h i + 1#24 else Sparse.read 0#24 s.h i) ∧
      ∀ d, pixelCell s.data.pixin d = pixelCell (s.data.pixin &&& 0x00FFFFFF#32) d

/-- 42_histogram R123: a write of `PIXPUSH` is `PIXIN <- v` and then everything `H.ACC` does, as one step; when it faults,
`PIXIN` has been written and `ERRINFO` is the `H.ACC` word; while `ERR = 1` it is dropped. -/
def Obligations.PixPushIsPixinThenHAcc : Prop :=
  ∀ (s : State) (v : Word),
    (s.status.err = false →
      s.access (.wr .word 0x14 v) = exec .hAcc (s.setData { s.data with pixin := v }) ∧
      ∀ t, s.access (.wr .word 0x14 v) = .next t → t.data.pixin = v ∧
        (t.status.err = true → t.status.errInfo = 0x21000000#32)) ∧
    (s.status.err = true → s.access (.wr .word 0x14 v) = .next s)

/-- 42_histogram R121, R127, 44_peak R153, 60_exceptions R193: the checks of `H.ACC`, `H.SMOOTH` and `P.EXTRACT`, in their
order; a failed check changes nothing but the fault record. -/
def Obligations.TileCommandChecks : Prop :=
  ∀ s : State, s.status.err = false →
    (s.status.hInit = false →
      exec .hAcc s = .next (s.setStatus { s.status with err := true, errCode := 4#32, errInfo := 0x21000000#32 }) ∧
      exec .hSmooth s = .next (s.setStatus { s.status with err := true, errCode := 4#32, errInfo := 0x22000000#32 })) ∧
    (s.status.hInit = true → s.pixcnt.toNat = 2 ^ 24 - 1 →
      exec .hAcc s = .next (s.setStatus { s.status with err := true, errCode := 5#32, errInfo := 0x21000000#32 })) ∧
    (s.status.hInit = true → s.cfg.tapSum ≠ 256 →
      exec .hSmooth s = .next (s.setStatus { s.status with err := true, errCode := 6#32, errInfo := 0x22000000#32 })) ∧
    (s.status.sValid = false →
      exec .pExtract s = .next (s.setStatus { s.status with err := true, errCode := 4#32, errInfo := 0x30000000#32 }))

/-- 42_histogram R126: a smoothed cell is the sum over all source cells of the count times the three axis weights. -/
def Obligations.SmoothedCellIsTheTripleSum : Prop :=
  ∀ (k : CfgRegs) (d : Nat) (m : Sparse (BitVec 24)), 0 < d → Sparse.wf 0#24 m = true →
    ∀ h2 c2 l2, h2 < d → c2 < d → l2 < d →
      smoothCell k d m (cell d h2 c2 l2) =
        ∑ h ∈ Finset.range d, ∑ c ∈ Finset.range d, ∑ l ∈ Finset.range d,
          (Sparse.read 0#24 m (cell d h c l)).toNat * weightH k d h h2 * weightCL k d c c2 * weightCL k d l l2

/-- 42_histogram R127, R128: `H.SMOOTH` with a kernel of sum 256 writes the `DEPTH^3` cells of `S` and nothing else of the
tile. That a cell is kept modulo 2^48 (log 10) and that cells at or above `DEPTH^3` stay (log 14) are the model's choices
and bear on no reachable or observable value. -/
def Obligations.HSmoothWritesTheSmoothedTile : Prop :=
  ∀ s : State, s.status.err = false → s.status.hInit = true → s.cfg.tapSum = 256 →
    ∃ t, exec .hSmooth s = .next t ∧
      t = (s.setSmooth t.smooth).setStatus { s.status with sValid := true, pkValid := false } ∧
      ∀ i, (Sparse.read 0#48 t.smooth i).toNat =
        if i < s.ncell then smoothCell s.cfg s.d s.h i % 2 ^ 48 else (Sparse.read 0#48 s.smooth i).toNat

/-- 42_histogram R129: mass conservation is exact, and no cell of `S` overflows. -/
def Obligations.SmoothingConservesMass : Prop :=
  ∀ s t : State, s.status.err = false → s.status.hInit = true → s.cfg.tapSum = 256 → s.RegsOk → s.MemOk → s.CountsOk →
    exec .hSmooth s = .next t →
    ∑ i ∈ Finset.range s.ncell, (Sparse.read 0#48 t.smooth i).toNat = s.pixcnt.toNat * 2 ^ 24 ∧
    ∀ i, i < s.ncell → (Sparse.read 0#48 t.smooth i).toNat = smoothCell s.cfg s.d s.h i ∧
      smoothCell s.cfg s.d s.h i ≤ s.pixcnt.toNat * 2 ^ 24 ∧ s.pixcnt.toNat * 2 ^ 24 < 2 ^ 48

/-! ## Correlation scorer -/

/-- 43_correlation R142: `S.CORR` on a valid slot writes `SCORE` and `DEGEN` and nothing else. -/
def Obligations.SCorrWritesTheScore : Prop :=
  ∀ (s : State) (slot : BitVec 16), s.status.err = false → s.status.sealed = true → slot.toNat < s.nslot →
    (s.slotAt slot.toNat).valid = true → s.status.sValid = true →
    ∃ q g, corr s.ncell (Sparse.cells s.ncell s.smooth) (Sparse.cells s.ncell (s.slotAt slot.toNat).cells) = (q, g) ∧
      -(2 ^ 30) ≤ q ∧ q ≤ 2 ^ 30 ∧
      ∃ t, exec (.sCorr slot) s = .next t ∧
        t = (s.setData { s.data with score := t.data.score }).setStatus { s.status with degen := g } ∧
        t.data.score.toInt = q

/-- 43_correlation R143 (a), (b): the score is symmetric, and 1.0 of a non-degenerate array with itself. -/
def Obligations.CorrelationSymmetricAndSelfOne : Prop :=
  ∀ (n : Nat) (xs ys : List Nat), xs.length = n → ys.length = n →
    corr n xs ys = corr n ys xs ∧ (covar n xs xs ≠ 0 → corr n xs xs = (2 ^ 30, false))

/-- 43_correlation R141: the variance is 0 exactly when all cells are equal, and then the pair is degenerate with score 0. -/
def Obligations.DegenerateExactlyWhenConstant : Prop :=
  ∀ (n : Nat) (xs ys : List Nat), xs.length = n → ys.length = n →
    (covar n xs xs = 0 ↔ ∀ a ∈ xs, ∀ b ∈ xs, a = b) ∧ 0 ≤ covar n xs xs ∧
    ((∀ a ∈ xs, ∀ b ∈ xs, a = b) ∨ (∀ a ∈ ys, ∀ b ∈ ys, a = b) ↔ (corr n xs ys).2 = true) ∧
    ((corr n xs ys).2 = true → (corr n xs ys).1 = 0)

/-! ## Peak extractor and peak matcher -/

/-- 44_peak R150, R151: a peak is strictly above every cell at most one bucket away on each axis, hue wrapping and the other
two axes not. -/
def Obligations.PeakIsStrictLocalMaximum : Prop :=
  ∀ (m : Sparse (BitVec 48)) (d h c l : Nat), 2 ≤ d → h < d → c < d → l < d →
    (isPeak m d h c l = true ↔
      ∀ h' c' l', h' < d → c' < d → l' < d → ¬ (h' = h ∧ c' = c ∧ l' = l) →
        (h' = h ∨ h' = (h + 1) % d ∨ h = (h' + 1) % d) → c' ≤ c + 1 → c ≤ c' + 1 → l' ≤ l + 1 → l ≤ l' + 1 →
        (Sparse.read 0#48 m (cell d h' c' l')).toNat < (Sparse.read 0#48 m (cell d h c l)).toNat)

/-- 44_peak R152: the cluster list holds the peaks of greatest rank, by mass and then by cell index, at most `MAXPEAKS`. -/
def Obligations.ClusterListHoldsTheTopPeaks : Prop :=
  ∀ (m : Sparse (BitVec 48)) (d maxPeaks : Nat), 2 ≤ d → d ≤ 32 →
    (peaks m d maxPeaks).length =
      min maxPeaks ((List.range (d * d * d)).countP fun i => isPeak m d (i / d / d) (i / d % d) (i % d)) ∧
    (∀ x ∈ peaks m d maxPeaks, x.h.toNat < d ∧ x.c.toNat < d ∧ x.l.toNat < d ∧
      isPeak m d x.h.toNat x.c.toNat x.l.toNat = true ∧
      x.mass = Sparse.read 0#48 m (cell d x.h.toNat x.c.toNat x.l.toNat)) ∧
    ((peaks m d maxPeaks).Pairwise fun x y => y.mass.toNat < x.mass.toNat ∨
      (x.mass = y.mass ∧ cell d x.h.toNat x.c.toNat x.l.toNat < cell d y.h.toNat y.c.toNat y.l.toNat)) ∧
    ∀ h c l, h < d → c < d → l < d → isPeak m d h c l = true →
      (∃ x ∈ peaks m d maxPeaks, x.h.toNat = h ∧ x.c.toNat = c ∧ x.l.toNat = l) ∨
      (∀ x ∈ peaks m d maxPeaks, (Sparse.read 0#48 m (cell d h c l)).toNat < x.mass.toNat ∨
        (Sparse.read 0#48 m (cell d h c l) = x.mass ∧ cell d x.h.toNat x.c.toNat x.l.toNat < cell d h c l))

/-- 44_peak R153: `P.EXTRACT` with a valid `S` writes the cluster list and `PK_VALID` and nothing else. -/
def Obligations.PExtractWritesTheClusters : Prop :=
  ∀ s : State, s.status.err = false → s.status.sValid = true →
    exec .pExtract s = .next ((s.setTcl (peaks s.smooth s.d s.cfg.maxpeaks.toNat)).setStatus
      { s.status with pkValid := true })

/-- 44_peak R154: the distance of two clusters below `DEPTH`, with its circular hue difference and the three `PDS_*`
weights; it is symmetric and at most 555390. 44_peak R155: the similarity of two clusters depends on their distance only;
it is 65536 at distance 0, never increases, is 1 at 256 and 0 above. -/
def Obligations.SimilarityNeverIncreases : Prop :=
  (∀ (k : CfgRegs) (d : Nat) (p q : Cluster), d ≤ 32 → p.h.toNat < d → q.h.toNat < d →
    dist2 k d p q = k.pdsH.toNat * (min (absDiff p.h.toNat q.h.toNat) (d - absDiff p.h.toNat q.h.toNat)) ^ 2
      + k.pdsC.toNat * (absDiff p.c.toNat q.c.toNat) ^ 2 + k.pdsL.toNat * (absDiff p.l.toNat q.l.toNat) ^ 2 ∧
    dist2 k d p q = dist2 k d q p ∧ dist2 k d p q ≤ 555390) ∧
  (∀ (k : CfgRegs) (d : Nat) (p q : Cluster), sim k d p q = simOfDist (dist2 k d p q)) ∧
  simOfDist 0 = 65536 ∧ simOfDist 256 = 1 ∧ (∀ a b : Nat, a ≤ b → simOfDist b ≤ simOfDist a) ∧
  (∀ a : Nat, 0 < simOfDist a ↔ a ≤ 256) ∧
  ∀ a : Nat, simOfDist a = if 17 ≤ a / 16 then 0 else frac2 (a % 16) / 2 ^ (a / 16)

/-- 44_peak R156: every tile cluster makes one pair with every slot cluster, of weight similarity times the two masses; the
pairs stand by rising `i`, then `j`. 44_peak R157: the assignment is greedy for `min(nt, ne)` rounds over all pairs. Whatever
pairs are still unmatched, a round has a pair to choose unless none is left; it chooses the one of greatest weight and, among
equal weights, of least `i` and then least `j`, adds its weight, and goes on with the pairs that share neither cluster. -/
def Obligations.GreedyPicksHeaviestLowestPair : Prop :=
  ∀ (k : CfgRegs) (d : Nat) (ts es : List Cluster),
    (∀ p, p ∈ weightedPairs k d ts es ↔ ∃ t e, ts[p.i]? = some t ∧ es[p.j]? = some e ∧
      p.weight = sim k d t e * t.mass.toNat * e.mass.toNat) ∧
    (weightedPairs k d ts es).Pairwise (fun p q => p.i < q.i ∨ (p.i = q.i ∧ p.j < q.j)) ∧
    assignment k d ts es = greedy (min ts.length es.length) (weightedPairs k d ts es) ∧
    (∀ ps, greedy 0 ps = 0) ∧ (∀ n, greedy n [] = 0) ∧
    ∀ (n : Nat) (ps : List WeightedPair), ps.Sublist (weightedPairs k d ts es) → ps ≠ [] →
      ∃ p ∈ ps, heaviest ps = some p ∧
        (∀ q ∈ ps, q.weight < p.weight ∨ (q.weight = p.weight ∧ (p.i < q.i ∨ (p.i = q.i ∧ p.j ≤ q.j)))) ∧
        greedy (n + 1) ps = p.weight + greedy n (ps.filter fun q => q.i ≠ p.i ∧ q.j ≠ p.j)

/-- 44_peak R158: the peak score lies in `[0, 2^30]` for any lists and totals. When the masses of each list add up to at most
its total mass, the guard of the score does not bind; and in every state that meets the mass invariant, which every reachable
state does, they do, for the tile's valid list and for that of every valid slot. -/
def Obligations.PeakScoreGuardNeverBinds : Prop :=
  (∀ (k : CfgRegs) (d : Nat) (ts es : List Cluster) (mt me : Nat),
    0 ≤ (pscore k d ts mt es me).1 ∧ (pscore k d ts mt es me).1 ≤ 2 ^ 30 ∧
    ((ts.map fun x => x.mass.toNat).sum ≤ mt → (es.map fun x => x.mass.toNat).sum ≤ me →
      ts.length ≠ 0 → es.length ≠ 0 → mt ≠ 0 → me ≠ 0 →
      (pscore k d ts mt es me).1 = ((assignment k d ts es * 2 ^ 14 / (mt * me) : Nat) : Int) ∧
      (pscore k d ts mt es me).2 = false)) ∧
  ∀ (s : State) (j : Nat), s.MassOk → s.status.pkValid = true → s.slotValid j = true → (s.slotAt j).pkvalid = true →
    s.tcl.length ≠ 0 → (s.slotAt j).cl.length ≠ 0 → s.pixcnt ≠ 0#24 → (s.slotAt j).pixcnt ≠ 0#24 →
    (s.peakScore (s.slotAt j)).1 = ((assignment s.cfg s.d s.tcl (s.slotAt j).cl * 2 ^ 14 /
      ((s.pixcnt.toNat * 2 ^ 24) * ((s.slotAt j).pixcnt.toNat * 2 ^ 24)) : Nat) : Int)

/-- 44_peak R159: `S.PEAK` on a valid slot with both cluster lists writes `SCORE` and `DEGEN` and nothing else. -/
def Obligations.SPeakWritesTheScore : Prop :=
  ∀ (s : State) (slot : BitVec 16), s.status.err = false → s.status.sealed = true → slot.toNat < s.nslot →
    (s.slotAt slot.toNat).valid = true → s.status.sValid = true → s.status.pkValid = true →
    (s.slotAt slot.toNat).pkvalid = true →
    ∃ q g, pscore s.cfg s.d s.tcl (s.pixcnt.toNat * 2 ^ 24) (s.slotAt slot.toNat).cl
        ((s.slotAt slot.toNat).pixcnt.toNat * 2 ^ 24) = (q, g) ∧
      ∃ t, exec (.sPeak slot) s = .next t ∧
        t = (s.setData { s.data with score := t.data.score }).setStatus { s.status with degen := g } ∧
        t.data.score.toInt = q

/-- 43_correlation R142, 44_peak R159, 60_exceptions R193: the checks of `S.CORR` and `S.PEAK`, in their order. -/
def Obligations.ScorerChecks : Prop :=
  ∀ (s : State) (slot : BitVec 16), s.status.err = false →
    (s.status.sealed = false →
      exec (.sCorr slot) s = .next (s.setStatus
        { s.status with err := true, errCode := 9#32, errInfo := 0x50000000#32 ||| slot.setWidth 32 }) ∧
      exec (.sPeak slot) s = .next (s.setStatus
        { s.status with err := true, errCode := 9#32, errInfo := 0x51000000#32 ||| slot.setWidth 32 })) ∧
    (s.status.sealed = true → s.nslot ≤ slot.toNat ∨ (s.slotAt slot.toNat).valid = false →
      exec (.sCorr slot) s = .next (s.setStatus
        { s.status with err := true, errCode := 7#32, errInfo := 0x50000000#32 ||| slot.setWidth 32 }) ∧
      exec (.sPeak slot) s = .next (s.setStatus
        { s.status with err := true, errCode := 7#32, errInfo := 0x51000000#32 ||| slot.setWidth 32 })) ∧
    (s.status.sealed = true → slot.toNat < s.nslot → (s.slotAt slot.toNat).valid = true → s.status.sValid = false →
      exec (.sCorr slot) s = .next (s.setStatus
        { s.status with err := true, errCode := 4#32, errInfo := 0x50000000#32 ||| slot.setWidth 32 })) ∧
    (s.status.sealed = true → slot.toNat < s.nslot → (s.slotAt slot.toNat).valid = true →
      s.status.sValid = false ∨ s.status.pkValid = false ∨ (s.slotAt slot.toNat).pkvalid = false →
      exec (.sPeak slot) s = .next (s.setStatus
        { s.status with err := true, errCode := 4#32, errInfo := 0x51000000#32 ||| slot.setWidth 32 }))

/-! ## Asset store and best match -/

/-- 45_assets_match R170: `A.COMMIT` copies the tile's result into the slot; no other slot and nothing of the tile changes.
That a slot's stale cluster list stays when `PK_VALID = 0` (log 7) and its cells at or above `DEPTH^3` stay (log 14) are the
model's choices and unobservable. -/
def Obligations.ACommitCopiesTheTile : Prop :=
  ∀ (s : State) (slot : BitVec 16), s.status.err = false → s.status.sealed = false → slot.toNat < s.nslot →
    s.status.sValid = true → Sparse.wf Slot.empty s.slots = true →
    ∃ t x, exec (.aCommit slot) s = .next t ∧ t = s.setSlots t.slots ∧ t.slotAt slot.toNat = x ∧
      (∀ k, k ≠ slot.toNat → t.slotAt k = s.slotAt k) ∧
      x.valid = true ∧ x.ident = s.cfg.assetId ∧ x.pixcnt = s.pixcnt ∧ x.pkvalid = s.status.pkValid ∧
      (s.status.pkValid = true → x.cl = s.tcl) ∧
      (s.status.pkValid = false → x.cl = (s.slotAt slot.toNat).cl) ∧
      ∀ i, Sparse.read 0#48 x.cells i =
        if i < s.ncell then Sparse.read 0#48 s.smooth i else Sparse.read 0#48 (s.slotAt slot.toNat).cells i

/-- 45_assets_match R171: `A.SEAL` sets `SEALED` and changes nothing else, also when it is set already. -/
def Obligations.ASealSetsSealed : Prop :=
  ∀ s : State, s.status.err = false → exec .aSeal s = .next (s.setStatus { s.status with sealed := true })

/-- 45_assets_match R173: the winner has the greatest score; among equal scores the least id; among equal ids the least slot
index. A set with a candidate has a winner. -/
def Obligations.WinnerIsGreatestThenLowest : Prop :=
  ∀ cs : List Candidate, (cs ≠ [] → ∃ w, winner cs = some w) ∧
    ∀ w, winner cs = some w → w ∈ cs ∧ ∀ c ∈ cs, c.score < w.score ∨ (c.score = w.score ∧
      (w.ident.toNat < c.ident.toNat ∨ (w.ident = c.ident ∧ w.index ≤ c.index)))

/-- 45_assets_match R172, R174: `MATCH` names the winner among the valid slots, and writes `BEST_*`, `BEST_VALID` and
`DEGEN` and nothing else. -/
def Obligations.MatchWritesTheWinner : Prop :=
  ∀ s : State, s.status.err = false → s.status.sealed = true → s.status.sValid = true → s.MemOk →
    (s.cfg.matchalg = 0#1 ∨
      (s.status.pkValid = true ∧ ∀ k, k < s.nslot → (s.slotAt k).valid = true → (s.slotAt k).pkvalid = true)) →
    (∃ k, k < s.nslot ∧ (s.slotAt k).valid = true ∧ (s.slotAt k).pixcnt ≠ 0#24) →
    ∃ t k, exec .matchBest s = .next t ∧ k < s.nslot ∧ (s.slotAt k).valid = true ∧
      (let score := fun j => if s.cfg.matchalg = 0#1 then s.corrScore (s.slotAt j) else s.peakScore (s.slotAt j)
       (∀ j, j < s.nslot → (s.slotAt j).valid = true → (score j).1 < (score k).1 ∨ ((score j).1 = (score k).1 ∧
          ((s.slotAt k).ident.toNat < (s.slotAt j).ident.toNat ∨ ((s.slotAt k).ident = (s.slotAt j).ident ∧ k ≤ j)))) ∧
       t.data = { s.data with bestSlot := BitVec.ofNat 16 k, bestId := (s.slotAt k).ident,
                              bestScore := BitVec.ofInt 32 (score k).1 } ∧
       t = (s.setData t.data).setStatus { s.status with bestValid := true, degen := t.status.degen } ∧
       (t.status.degen = true ↔ ∃ j, j < s.nslot ∧ (s.slotAt j).valid = true ∧ (score j).2 = true))

/-- 45_assets_match R170, R174, R175, 60_exceptions R193: the checks of `A.COMMIT` and `MATCH`, in their order. -/
def Obligations.CommitAndMatchChecks : Prop :=
  ∀ (s : State) (slot : BitVec 16), s.status.err = false → s.MemOk →
    (s.status.sealed = true →
      exec (.aCommit slot) s = .next (s.setStatus
        { s.status with err := true, errCode := 8#32, errInfo := 0x40000000#32 ||| slot.setWidth 32 })) ∧
    (s.status.sealed = false → s.nslot ≤ slot.toNat →
      exec (.aCommit slot) s = .next (s.setStatus
        { s.status with err := true, errCode := 7#32, errInfo := 0x40000000#32 ||| slot.setWidth 32 })) ∧
    (s.status.sealed = false → slot.toNat < s.nslot → s.status.sValid = false →
      exec (.aCommit slot) s = .next (s.setStatus
        { s.status with err := true, errCode := 4#32, errInfo := 0x40000000#32 ||| slot.setWidth 32 })) ∧
    (s.status.sealed = false →
      exec .matchBest s = .next (s.setStatus { s.status with err := true, errCode := 9#32, errInfo := 0x52000000#32 })) ∧
    (s.status.sealed = true → s.status.sValid = false ∨ (s.cfg.matchalg = 1#1 ∧ (s.status.pkValid = false ∨
        ∃ k, k < s.nslot ∧ (s.slotAt k).valid = true ∧ (s.slotAt k).pkvalid = false)) →
      exec .matchBest s = .next (s.setStatus { s.status with err := true, errCode := 4#32, errInfo := 0x52000000#32 })) ∧
    (s.status.sealed = true → s.status.sValid = true → (s.cfg.matchalg = 0#1 ∨ (s.status.pkValid = true ∧
        ∀ k, k < s.nslot → (s.slotAt k).valid = true → (s.slotAt k).pkvalid = true)) →
      (∀ k, k < s.nslot → (s.slotAt k).valid = true → (s.slotAt k).pixcnt = 0#24) →
      exec .matchBest s = .next (s.setStatus { s.status with err := true, errCode := 10#32, errInfo := 0x52000000#32 }))

/-! ## Register accesses -/

/-- 20_memory R45: a read answers the register's value and changes nothing, for any offset, in any state. The value stands
in `rdata`, the model's own field for the `Value` of 00_scope R5 (log 2). Which value each offset answers (20_memory R41,
10_state R11, R15, R18, R20, R21): the identity constant, the fault record, the data, configuration and window registers,
`PIXCNT` and `NSLOTS`, each with zeros above its field; `STATUS` and the zero reads stand in `ZeroReadsAndTheStatusWord`, the
read-back windows in the three statements about them. -/
def Obligations.ReadsChangeNothing : Prop :=
  ∀ s : State,
    (∀ off : Nat, off % 4 = 0 → off < 256 →
      s.access (.rd .word off) = .next (s.setRdata (s.readAt off)) ∧
      s.SameCme (s.setRdata (s.readAt off)) ∧ (s.setRdata (s.readAt off)).pending = s.pending) ∧
    s.readAt 0x00 = 0x454D4F54#32 ∧ s.readAt 0x0C = s.status.errCode ∧ s.readAt 0x10 = s.status.errInfo ∧
    s.readAt 0x18 = s.data.pixin ∧ s.readAt 0x1C = s.data.pixout ∧
    (s.readAt 0x20).toNat = s.data.hclH.toNat ∧ (s.readAt 0x24).toNat = s.data.hclC.toNat ∧
    (s.readAt 0x28).toNat = s.data.hclL.toNat ∧ s.readAt 0x2C = s.data.red ∧ s.readAt 0x30 = s.data.score ∧
    (s.readAt 0x34).toNat = s.data.bestSlot.toNat ∧ s.readAt 0x38 = s.data.bestId ∧
    s.readAt 0x3C = s.data.bestScore ∧ (s.readAt 0x40).toNat = s.d ∧ (s.readAt 0x44).toNat = s.cfg.sradius.toNat ∧
    (s.readAt 0x48).toNat = s.cfg.ktap0.toNat ∧ (s.readAt 0x4C).toNat = s.cfg.ktap1.toNat ∧
    (s.readAt 0x50).toNat = s.cfg.ktap2.toNat ∧ (s.readAt 0x54).toNat = s.cfg.ktap3.toNat ∧
    (s.readAt 0x58).toNat = s.cfg.ktap4.toNat ∧ (s.readAt 0x5C).toNat = s.cfg.matchalg.toNat ∧
    (s.readAt 0x60).toNat = s.cfg.maxpeaks.toNat ∧ (s.readAt 0x64).toNat = s.cfg.pdsH.toNat ∧
    (s.readAt 0x68).toNat = s.cfg.pdsC.toNat ∧ (s.readAt 0x6C).toNat = s.cfg.pdsL.toNat ∧
    s.readAt 0x70 = s.cfg.assetId ∧ (s.readAt 0x74).toNat = s.pixcnt.toNat ∧ s.readAt 0x78 = s.win.hsel ∧
    (s.readAt 0x7C).toNat = s.win.haddr.toNat ∧ s.readAt 0x88 = s.win.clsel ∧ (s.readAt 0x9C).toNat = s.nslot

/-- 20_memory R46: `CMD`, `PIXPUSH` and the unmapped offsets read 0, without a fault. 10_state R13: `STATUS` reads the
seven flags at their bits, and zero above. -/
def Obligations.ZeroReadsAndTheStatusWord : Prop :=
  ∀ s : State,
    (∀ off, off = 0x04 ∨ off = 0x14 ∨ (off % 4 = 0 ∧ 0xAC ≤ off ∧ off ≤ 0xFC) →
      s.access (.rd .word off) = .next (s.setRdata 0#32)) ∧
    ∃ w, s.access (.rd .word 0x08) = .next (s.setRdata w) ∧
      w.getLsbD 0 = s.status.err ∧ w.getLsbD 1 = s.status.sealed ∧ w.getLsbD 2 = s.status.hInit ∧
      w.getLsbD 3 = s.status.sValid ∧ w.getLsbD 4 = s.status.pkValid ∧ w.getLsbD 5 = s.status.degen ∧
      w.getLsbD 6 = s.status.bestValid ∧ ∀ k, 7 ≤ k → w.getLsbD k = false

/-- 20_memory R47: a write of a read-only register or of an unmapped offset raises `ERR_ACCESS` with the offset, and changes
nothing else. -/
def Obligations.ReadOnlyAndUnmappedWritesFault : Prop :=
  ∀ (s : State) (off : Nat) (v : Word), s.status.err = false →
    off ∈ [0x00, 0x08, 0x0C, 0x10, 0x1C, 0x2C, 0x30, 0x34, 0x38, 0x3C, 0x74, 0x80, 0x84, 0x8C, 0x90, 0x94, 0x98, 0x9C,
           0xA0, 0xA4, 0xA8] ∨ (off % 4 = 0 ∧ 0xAC ≤ off ∧ off ≤ 0xFC) →
    s.access (.wr .word off v) = .next (s.setStatus
      { s.status with err := true, errCode := 12#32, errInfo := BitVec.ofNat 32 off })

/-- 10_state R11, R14, R15: a write of `PIXIN` keeps the word; a write of an HCL register keeps the low 16 bits, whatever
they are, and bits [31:16] read zero. -/
def Obligations.DataRegisterWrites : Prop :=
  ∀ (s : State) (v : Word), s.status.err = false →
    (∃ t, s.access (.wr .word 0x18 v) = .next t ∧ t = s.setData { s.data with pixin := v } ∧ t.readAt 0x18 = v) ∧
    (∃ t, s.access (.wr .word 0x20 v) = .next t ∧ t = s.setData { s.data with hclH := t.data.hclH } ∧
      t.readAt 0x20 = v &&& 0xFFFF#32) ∧
    (∃ t, s.access (.wr .word 0x24 v) = .next t ∧ t = s.setData { s.data with hclC := t.data.hclC } ∧
      t.readAt 0x24 = v &&& 0xFFFF#32) ∧
    (∃ t, s.access (.wr .word 0x28 v) = .next t ∧ t = s.setData { s.data with hclL := t.data.hclL } ∧
      t.readAt 0x28 = v &&& 0xFFFF#32)

/-- 10_state R18: every configuration register but `DEPTH` takes exactly its legal values; an installed value reads back and
no other register of the window reads differently; an illegal one raises `ERR_BAD_CFG` with the offset and leaves the
register. -/
def Obligations.ConfigRegisterWrites : Prop :=
  ∀ (s : State) (off lo hi : Nat) (v : Word), s.status.err = false →
    (off, lo, hi) ∈ [(0x44, 0, 4), (0x48, 0, 256), (0x4C, 0, 256), (0x50, 0, 256), (0x54, 0, 256), (0x58, 0, 256),
      (0x5C, 0, 1), (0x60, 1, 16), (0x64, 0, 255), (0x68, 0, 255), (0x6C, 0, 255), (0x70, 0, 0xFFFFFFFF)] →
    (lo ≤ v.toNat ∧ v.toNat ≤ hi →
      ∃ t, s.access (.wr .word off v) = .next t ∧ t = s.setCfg t.cfg ∧ t.readAt off = v ∧
        ∀ off', off' ≠ off → t.readAt off' = s.readAt off') ∧
    (¬ (lo ≤ v.toNat ∧ v.toNat ≤ hi) →
      s.access (.wr .word off v) = .next (s.setStatus
        { s.status with err := true, errCode := 2#32, errInfo := BitVec.ofNat 32 off }))

/-- 10_state R18, R19: a write of `DEPTH`: illegal, the same value, another value while histogram content exists, another
value while none does. -/
def Obligations.DepthWriteAndItsLock : Prop :=
  ∀ (s : State) (v : Word), s.status.err = false → s.MemOk →
    (¬ (2 ≤ v.toNat ∧ v.toNat ≤ 32) →
      s.access (.wr .word 0x40 v) = .next (s.setStatus
        { s.status with err := true, errCode := 2#32, errInfo := 0x40#32 })) ∧
    (2 ≤ v.toNat ∧ v.toNat ≤ 32 → v.toNat = s.d → s.access (.wr .word 0x40 v) = .next s) ∧
    (2 ≤ v.toNat ∧ v.toNat ≤ 32 → v.toNat ≠ s.d →
      (s.pixcnt ≠ 0#24 ∨ s.status.sValid = true ∨ ∃ k, k < s.nslot ∧ (s.slotAt k).valid = true) →
      s.access (.wr .word 0x40 v) = .next (s.setStatus
        { s.status with err := true, errCode := 3#32, errInfo := 0x40#32 })) ∧
    (2 ≤ v.toNat ∧ v.toNat ≤ 32 → v.toNat ≠ s.d →
      ¬ (s.pixcnt ≠ 0#24 ∨ s.status.sValid = true ∨ ∃ k, k < s.nslot ∧ (s.slotAt k).valid = true) →
      ∃ t, s.access (.wr .word 0x40 v) = .next t ∧ t.d = v.toNat ∧
        t = (s.setCfg { s.cfg with depth := t.cfg.depth }).setStatus { s.status with hInit := false })

/-- 10_state R20: the window registers take exactly their legal values; an illegal one raises `ERR_BAD_CFG`. -/
def Obligations.WindowRegisterWrites : Prop :=
  ∀ (s : State) (v : Word), s.status.err = false →
    (v &&& 3#32 ≠ 3#32 ∧ v &&& 0xFFFC#32 = 0#32 →
      s.access (.wr .word 0x78 v) = .next (s.setWin { s.win with hsel := v })) ∧
    (¬ (v &&& 3#32 ≠ 3#32 ∧ v &&& 0xFFFC#32 = 0#32) →
      s.access (.wr .word 0x78 v) = .next (s.setStatus
        { s.status with err := true, errCode := 2#32, errInfo := 0x78#32 })) ∧
    (v.toNat ≤ 32767 → ∃ t, s.access (.wr .word 0x7C v) = .next t ∧ t = s.setWin { s.win with haddr := t.win.haddr } ∧
      t.readAt 0x7C = v) ∧
    (32767 < v.toNat → s.access (.wr .word 0x7C v) = .next (s.setStatus
      { s.status with err := true, errCode := 2#32, errInfo := 0x7C#32 })) ∧
    (v &&& 0xFEF0#32 = 0#32 → s.access (.wr .word 0x88 v) = .next (s.setWin { s.win with clsel := v })) ∧
    (v &&& 0xFEF0#32 ≠ 0#32 → s.access (.wr .word 0x88 v) = .next (s.setStatus
      { s.status with err := true, errCode := 2#32, errInfo := 0x88#32 }))

/-- 20_memory R49: the histogram window; a buffer whose valid flag is 0 reads as zero. -/
def Obligations.HistogramWindowReads : Prop :=
  ∀ s : State, ∃ v : Nat, v < 2 ^ 48 ∧
    (s.readAt 0x80).toNat = v % 2 ^ 32 ∧ (s.readAt 0x84).toNat = v / 2 ^ 32 ∧
    v = (if s.win.hsel.toNat % 4 = 0 ∧ s.status.hInit = true ∧ s.win.haddr.toNat < s.d ^ 3 then
          (Sparse.read 0#24 s.h s.win.haddr.toNat).toNat
        else if s.win.hsel.toNat % 4 = 1 ∧ s.status.sValid = true ∧ s.win.haddr.toNat < s.d ^ 3 then
          (Sparse.read 0#48 s.smooth s.win.haddr.toNat).toNat
        else if s.win.hsel.toNat % 4 = 2 ∧ s.win.hsel.toNat / 2 ^ 16 < s.nslot ∧
            (s.slotAt (s.win.hsel.toNat / 2 ^ 16)).valid = true ∧ s.win.haddr.toNat < s.d ^ 3 then
          (Sparse.read 0#48 (s.slotAt (s.win.hsel.toNat / 2 ^ 16)).cells s.win.haddr.toNat).toNat
        else 0)

/-- 20_memory R50: the cluster window. -/
def Obligations.ClusterWindowReads : Prop :=
  ∀ s : State, s.MemOk → ∃ xs : List Cluster,
    xs = (if s.win.clsel.getLsbD 8 = false ∧ s.status.pkValid = true then s.tcl
      else if s.win.clsel.getLsbD 8 = true ∧ s.win.clsel.toNat / 2 ^ 16 < s.nslot ∧
          (s.slotAt (s.win.clsel.toNat / 2 ^ 16)).valid = true ∧
          (s.slotAt (s.win.clsel.toNat / 2 ^ 16)).pkvalid = true then
        (s.slotAt (s.win.clsel.toNat / 2 ^ 16)).cl
      else []) ∧
    (s.readAt 0x8C).toNat = xs.length ∧
    (∀ x, xs[s.win.clsel.toNat % 16]? = some x →
      (s.readAt 0x90).toNat = x.h.toNat * 2 ^ 16 + x.c.toNat * 2 ^ 8 + x.l.toNat ∧
      (s.readAt 0x94).toNat = x.mass.toNat % 2 ^ 32 ∧ (s.readAt 0x98).toNat = x.mass.toNat / 2 ^ 32) ∧
    (xs.length ≤ s.win.clsel.toNat % 16 →
      s.readAt 0x90 = 0#32 ∧ s.readAt 0x94 = 0#32 ∧ s.readAt 0x98 = 0#32)

/-- 20_memory R51: the slot information. -/
def Obligations.SlotInformationReads : Prop :=
  ∀ s : State, s.MemOk →
    (s.win.hsel.toNat / 2 ^ 16 < s.nslot ∧ (s.slotAt (s.win.hsel.toNat / 2 ^ 16)).valid = true →
      (s.readAt 0xA0).toNat = 1 + (if (s.slotAt (s.win.hsel.toNat / 2 ^ 16)).pkvalid = true then
        2 + (s.slotAt (s.win.hsel.toNat / 2 ^ 16)).cl.length * 2 ^ 8 else 0) ∧
      s.readAt 0xA4 = (s.slotAt (s.win.hsel.toNat / 2 ^ 16)).ident ∧
      (s.readAt 0xA8).toNat = (s.slotAt (s.win.hsel.toNat / 2 ^ 16)).pixcnt.toNat) ∧
    (¬ (s.win.hsel.toNat / 2 ^ 16 < s.nslot ∧ (s.slotAt (s.win.hsel.toNat / 2 ^ 16)).valid = true) →
      s.readAt 0xA0 = 0#32 ∧ s.readAt 0xA4 = 0#32 ∧ s.readAt 0xA8 = 0#32)

/-! ## The whole machine -/

/-- 60_exceptions R194: while `ERR = 1` every write but that of the `SRESET` word to `CMD` is dropped and changes no state;
reads work as always. -/
def Obligations.FaultedMachineDropsWrites : Prop :=
  ∀ (s : State) (off : Nat) (v : Word), s.status.err = true → off % 4 = 0 → off < 256 →
    (¬ (off = 0x04 ∧ v = 0x01000000#32) → s.access (.wr .word off v) = .next s) ∧
    (∃ t, s.access (.wr .word 0x04 0x01000000#32) = .next t ∧ t.status.err = false) ∧
    s.access (.rd .word off) = .next (s.setRdata (s.readAt off))

/-- 60_exceptions R190, R191, 42_histogram R123: a fault is precise. When a step latches a fault, the write has changed
nothing but `ERR`, `ERRCODE` and `ERRINFO` (a faulting `PIXPUSH` has also written `PIXIN`), the code is one of the twelve,
and `ERRINFO` is the command word, the `H.ACC` word or the offset. -/
def Obligations.FaultsArePrecise : Prop :=
  ∀ s t : State, step s = .next t → s.status.err = false → t.status.err = true →
    ∃ (off : Nat) (v : Word) (rest : List Access) (c : ErrCode), s.pending = .wr .word off v :: rest ∧
      t = (((s.setPending rest).setData t.data).setStatus
        { s.status with err := true, errCode := c.code,
                        errInfo := if off = 0x04 then v else if off = 0x14 then 0x21000000#32
                          else BitVec.ofNat 32 off }) ∧
      t.data = (if off = 0x14 then { s.data with pixin := v } else s.data)

/-- 10_state R13, 60_exceptions R195: `ERR`, `SEALED` and `BEST_VALID` are cleared by the `SRESET` command only. -/
def Obligations.OnlySresetClearsStickyFlags : Prop :=
  ∀ s t : State, step s = .next t →
    (s.status.err = true ∧ t.status.err = false) ∨ (s.status.sealed = true ∧ t.status.sealed = false) ∨
      (s.status.bestValid = true ∧ t.status.bestValid = false) →
    ∃ rest, s.pending = .wr .word 0x04 0x01000000#32 :: rest

/-- 10_state R25: after `A.SEAL` no step writes a slot, but for the reset that ends the match phase; and in every phase only
a write of `CMD` writes one. -/
def Obligations.SealedSlotsAreFrozen : Prop :=
  ∀ s t : State, step s = .next t →
    (s.status.sealed = true → t.slots = s.slots ∨ ∃ rest, s.pending = .wr .word 0x04 0x01000000#32 :: rest) ∧
    ((∀ v rest, s.pending ≠ .wr .word 0x04 v :: rest) → t.slots = s.slots)

/-! ## Invariants -/

/-- Every invariant of `Safety.lean` holds at reset, for every `NSLOT`. That the memories list nothing at reset is the
model's choice (logs 4, 6, 7). -/
def Obligations.ResetMeetsEveryInvariant : Prop :=
  ∀ n : Fin 65536, (State.resetWith n).RegsOk ∧ (State.resetWith n).MemOk ∧ (State.resetWith n).FlagsOk ∧
    (State.resetWith n).CountsOk ∧ (State.resetWith n).MassOk ∧ (State.resetWith n).FaultOk ∧
    (State.resetWith n).ResultsOk ∧ (State.resetWith n).ClustersOk

/-- 10_state R18, R20, R24: every step keeps the configuration and window registers legal and the cluster lists within
`PKMAX`. The rest of `MemOk` is about the model's own representation: that the memories `H`, `S`, the slots and their cells
rise strictly and list no cell at the default value, and list no slot at or above `NSLOT`, is the model's choice (log 4), and
so is that `TCLN` and `CLN` are the lengths of lists (log 6). -/
def Obligations.StepKeepsRegistersAndMemories : Prop :=
  ∀ s t : State, s.RegsOk → s.MemOk → step s = .next t → t.RegsOk ∧ t.MemOk

/-- 10_state R26: every step keeps the invariant of the valid flags. -/
def Obligations.StepKeepsFlagInvariant : Prop :=
  ∀ s t : State, s.MemOk → s.FlagsOk → step s = .next t → t.FlagsOk

/-- 42_histogram R124: every step keeps `Σ H[i] = PIXCNT` while `H_INIT = 1`. -/
def Obligations.StepKeepsCounts : Prop :=
  ∀ s t : State, s.RegsOk → s.MemOk → s.CountsOk → step s = .next t → t.CountsOk

/-- 42_histogram R129, 44_peak R156, R158: every step keeps the mass of `S` and of every valid slot, and that the masses of
an observable cluster list add up to at most that mass. -/
def Obligations.StepKeepsMass : Prop :=
  ∀ s t : State, s.RegsOk → s.MemOk → s.FlagsOk → s.CountsOk → s.MassOk → step s = .next t → t.MassOk

/-- 10_state R16, R17, R19, R21, R24, 60_exceptions R192: every step keeps the fault record, the result registers and every
observable cluster in their ranges. -/
def Obligations.StepKeepsObservableRanges : Prop :=
  ∀ s t : State, s.RegsOk → s.MemOk → s.FlagsOk → s.FaultOk → s.ResultsOk → s.ClustersOk → step s = .next t →
    t.FaultOk ∧ t.ResultsOk ∧ t.ClustersOk

/-- 10_state R26, 42_histogram R124, R129: in every state a host can bring a CME to, whatever accesses it issues and whatever
`NSLOT` is, the flag invariant holds and counts and masses add up. -/
def Obligations.ReachableStatesMeetTheInvariants : Prop :=
  ∀ s : State, Reachable s → s.FlagsOk ∧ s.CountsOk ∧ s.MassOk
end

