-- ==== Sys2Proof/Laws/Sparse.lean ====
section
/-! SUPPORT. The laws of sparse memories: what each operation reads back, and that each keeps the canonical form. -/

namespace Sys2Proof.Machine

variable {α : Type}

@[simp] theorem Sparse.read_nil (dflt : α) (i : Nat) : Sparse.read dflt [] i = dflt := rfl

theorem Sparse.rising_mono {lo lo' : Nat} (h : lo' ≤ lo) :
    ∀ {m : Sparse α}, Sparse.rising lo m = true → Sparse.rising lo' m = true
  | [], _ => rfl
  | (k, v) :: m, hm => by
    simp only [Sparse.rising, Bool.and_eq_true, decide_eq_true_eq] at hm ⊢
    exact ⟨by omega, hm.2⟩

/-- A cell below every listed index reads as the default value. -/
theorem Sparse.read_below {dflt : α} : ∀ {lo : Nat} {m : Sparse α} {i : Nat},
    Sparse.rising lo m = true → i < lo → Sparse.read dflt m i = dflt
  | _, [], _, _, _ => rfl
  | lo, (k, v) :: m, i, hm, hi => by
    simp only [Sparse.rising, Bool.and_eq_true, decide_eq_true_eq] at hm
    rw [Sparse.read, if_neg (by omega)]
    exact Sparse.read_below hm.2 (by omega)

/-- Read after write: the written cell holds the value, every other cell is as before. -/
theorem Sparse.read_write [DecidableEq α] {dflt : α} : ∀ {lo : Nat} {m : Sparse α} (_ : Sparse.rising lo m = true)
    (i j : Nat) (v : α), Sparse.read dflt (Sparse.write dflt m i v) j = if j = i then v else Sparse.read dflt m j
  | _, [], _, i, j, v => by
    by_cases hv : v = dflt <;> by_cases hj : j = i <;> simp [Sparse.write, Sparse.read, hv, hj]
  | lo, (k, u) :: m, hm, i, j, v => by
    simp only [Sparse.rising, Bool.and_eq_true, decide_eq_true_eq] at hm
    have hb : ∀ x, x ≤ k → Sparse.read dflt m x = dflt := fun x hx => Sparse.read_below hm.2 (by omega)
    have ih := Sparse.read_write (dflt := dflt) hm.2 i j v
    by_cases hik : i < k
    · have hne : i ≠ k := by omega
      by_cases hv : v = dflt
      · by_cases hj : j = i
        · subst hj; simp [Sparse.write, Sparse.read, hik, hv, hne, hb j (by omega)]
        · simp [Sparse.write, hik, hv, hj]
      · simp [Sparse.write, Sparse.read, hik, hv]
    · by_cases hek : i = k
      · subst hek
        by_cases hv : v = dflt
        · by_cases hj : j = i
          · subst hj; simp [Sparse.write, hv, hb j (by omega)]
          · simp [Sparse.write, Sparse.read, hv, hj]
        · by_cases hj : j = i <;> simp [Sparse.write, Sparse.read, hv, hj]
      · by_cases hj : j = k
        · subst hj
          have hji : ¬ j = i := fun h => hek h.symm
          simp [Sparse.write, Sparse.read, hik, hek, hji]
        · simp [Sparse.write, Sparse.read, hik, hek, hj, ih]

theorem Sparse.rising_write [DecidableEq α] {dflt : α} : ∀ {lo : Nat} {m : Sparse α} {i : Nat} {v : α},
    Sparse.rising lo m = true → lo ≤ i → Sparse.rising lo (Sparse.write dflt m i v) = true
  | lo, [], i, v, _, hi => by
    by_cases hv : v = dflt <;> simp [Sparse.write, Sparse.rising, hv, hi]
  | lo, (k, u) :: m, i, v, hm, hi => by
    have hm' := hm
    simp only [Sparse.rising, Bool.and_eq_true, decide_eq_true_eq] at hm
    by_cases hik : i < k
    · by_cases hv : v = dflt
      · simpa [Sparse.write, hik, hv] using hm'
      · simp only [Sparse.write, hik, hv, if_true, if_false, Sparse.rising, Bool.and_eq_true, decide_eq_true_eq]
        exact ⟨hi, by omega, hm.2⟩
    · by_cases hek : i = k
      · by_cases hv : v = dflt
        · simp only [Sparse.write, hek, hv, if_true, if_false, lt_irrefl]
          exact Sparse.rising_mono (by omega) hm.2
        · simp only [Sparse.write, hek, hv, if_true, if_false, lt_irrefl, Sparse.rising, Bool.and_eq_true,
            decide_eq_true_eq]
          exact ⟨hm.1, hm.2⟩
      · simp only [Sparse.write, hik, hek, if_false, Sparse.rising, Bool.and_eq_true, decide_eq_true_eq]
        exact ⟨hm.1, Sparse.rising_write hm.2 (by omega)⟩

theorem Sparse.mem_write [DecidableEq α] {dflt : α} : ∀ {m : Sparse α} {i : Nat} {v : α} {e : Nat × α},
    e ∈ Sparse.write dflt m i v → e ∈ m ∨ (e = (i, v) ∧ v ≠ dflt)
  | [], i, v, e, h => by
    by_cases hv : v = dflt <;> simp [Sparse.write, hv] at h
    exact .inr ⟨h, hv⟩
  | (k, u) :: m, i, v, e, h => by
    rw [Sparse.write] at h
    split at h
    · split at h
      · exact .inl h
      · rcases List.mem_cons.1 h with h | h
        · exact .inr ⟨h, ‹_›⟩
        · exact .inl h
    · split at h
      · split at h
        · exact .inl (List.mem_cons_of_mem _ h)
        · rcases List.mem_cons.1 h with h | h
          · exact .inr ⟨h, ‹_›⟩
          · exact .inl (List.mem_cons_of_mem _ h)
      · rcases List.mem_cons.1 h with h | h
        · exact .inl (h ▸ List.mem_cons_self)
        · rcases Sparse.mem_write h with h | h
          · exact .inl (List.mem_cons_of_mem _ h)
          · exact .inr h

theorem Sparse.wf_iff [DecidableEq α] {dflt : α} {m : Sparse α} :
    Sparse.wf dflt m = true ↔ Sparse.rising 0 m = true ∧ ∀ e ∈ m, e.2 ≠ dflt := by
  simp [Sparse.wf, List.all_eq_true]

@[simp] theorem Sparse.wf_nil [DecidableEq α] (dflt : α) : Sparse.wf dflt ([] : Sparse α) = true := rfl

/-- A write keeps the canonical form. -/
theorem Sparse.wf_write [DecidableEq α] {dflt : α} {m : Sparse α} (h : Sparse.wf dflt m = true) (i : Nat) (v : α) :
    Sparse.wf dflt (Sparse.write dflt m i v) = true := by
  rw [Sparse.wf_iff] at h ⊢
  refine ⟨Sparse.rising_write h.1 (Nat.zero_le _), fun e he => ?_⟩
  rcases Sparse.mem_write he with he | ⟨rfl, hv⟩
  · exact h.2 e he
  · exact hv

theorem Sparse.read_write_wf [DecidableEq α] {dflt : α} {m : Sparse α} (h : Sparse.wf dflt m = true) (i j : Nat) (v : α) :
    Sparse.read dflt (Sparse.write dflt m i v) j = if j = i then v else Sparse.read dflt m j :=
  Sparse.read_write (Sparse.wf_iff.1 h).1 i j v

theorem Sparse.rising_iff {m : Sparse α} : ∀ {lo : Nat},
    Sparse.rising lo m = true ↔ (∀ e ∈ m, lo ≤ e.1) ∧ m.Pairwise fun a b => a.1 < b.1 := by
  induction m with
  | nil => simp [Sparse.rising]
  | cons x m ih =>
    intro lo
    obtain ⟨k, v⟩ := x
    simp only [Sparse.rising, Bool.and_eq_true, decide_eq_true_eq, ih, List.forall_mem_cons, List.pairwise_cons]
    constructor
    · rintro ⟨h1, h2, h3⟩
      exact ⟨⟨h1, fun e he => by have := h2 e he; omega⟩, fun e he => by have := h2 e he; omega, h3⟩
    · rintro ⟨⟨h1, _⟩, h2, h3⟩
      exact ⟨h1, fun e he => h2 e he, h3⟩

/-- A listed cell reads as its entry. -/
theorem Sparse.read_of_mem {dflt : α} : ∀ {lo : Nat} {m : Sparse α} {i : Nat} {v : α},
    Sparse.rising lo m = true → (i, v) ∈ m → Sparse.read dflt m i = v
  | _, (k, u) :: m, i, v, hm, hi => by
    simp only [Sparse.rising, Bool.and_eq_true, decide_eq_true_eq] at hm
    rcases List.mem_cons.1 hi with h | h
    · cases h; simp [Sparse.read]
    · have := ((Sparse.rising_iff.1 hm.2).1 _ h)
      simp only [Sparse.read]
      rw [if_neg (by simp at this; omega)]
      exact Sparse.read_of_mem hm.2 h

/-- A cell that no entry lists reads as the default value. -/
theorem Sparse.read_of_not_mem {dflt : α} : ∀ {m : Sparse α} {i : Nat}, (∀ e ∈ m, e.1 ≠ i) → Sparse.read dflt m i = dflt
  | [], _, _ => rfl
  | (k, u) :: m, i, h => by
    rw [Sparse.read, if_neg (fun e => h (k, u) List.mem_cons_self e.symm)]
    exact Sparse.read_of_not_mem fun e he => h e (List.mem_cons_of_mem _ he)

theorem Sparse.mem_ofFn [DecidableEq α] {dflt : α} {n : Nat} {f : Nat → α} {e : Nat × α} :
    e ∈ Sparse.ofFn dflt n f ↔ e.1 < n ∧ e.2 = f e.1 ∧ f e.1 ≠ dflt := by
  obtain ⟨i, v⟩ := e
  simp only [Sparse.ofFn, List.mem_filterMap, List.mem_range]
  constructor
  · rintro ⟨j, hj, h⟩
    split at h
    · cases h
    · cases h; exact ⟨hj, rfl, ‹_›⟩
  · rintro ⟨h1, h2, h3⟩
    exact ⟨i, h1, by simp at h2 h3; simp [h2, h3]⟩

theorem Sparse.rising_ofFn [DecidableEq α] {dflt : α} {n : Nat} {f : Nat → α} :
    Sparse.rising 0 (Sparse.ofFn dflt n f) = true := by
  refine Sparse.rising_iff.2 ⟨fun _ _ => Nat.zero_le _, ?_⟩
  rw [Sparse.ofFn, List.pairwise_filterMap]
  refine List.pairwise_lt_range.imp fun {a b} hab => ?_
  intro x hx y hy
  split at hx
  · cases hx
  · split at hy
    · cases hy
    · cases hx; cases hy; exact hab

/-- A memory made from a function is in canonical form. -/
theorem Sparse.wf_ofFn [DecidableEq α] (dflt : α) (n : Nat) (f : Nat → α) :
    Sparse.wf dflt (Sparse.ofFn dflt n f) = true :=
  Sparse.wf_iff.2 ⟨Sparse.rising_ofFn, fun _ he => by
    have := Sparse.mem_ofFn.1 he; rw [this.2.1]; exact this.2.2⟩

/-- A memory made from a function holds its values below `n` and the default value from there on. -/
theorem Sparse.read_ofFn [DecidableEq α] (dflt : α) (n : Nat) (f : Nat → α) (i : Nat) :
    Sparse.read dflt (Sparse.ofFn dflt n f) i = if i < n then f i else dflt := by
  by_cases hi : i < n ∧ f i ≠ dflt
  · rw [if_pos hi.1]
    exact Sparse.read_of_mem Sparse.rising_ofFn (Sparse.mem_ofFn.2 ⟨hi.1, rfl, hi.2⟩)
  · rw [Sparse.read_of_not_mem]
    · split
      · by_contra hne; exact hi ⟨‹_›, fun h => hne h.symm⟩
      · rfl
    · rintro ⟨j, v⟩ he rfl
      have := Sparse.mem_ofFn.1 he
      exact hi ⟨this.1, this.2.2⟩

theorem Sparse.rising_replaceBelow {n : Nat} {src dst : Sparse α} (hs : Sparse.rising 0 src = true)
    (hd : Sparse.rising 0 dst = true) : Sparse.rising 0 (Sparse.replaceBelow n src dst) = true := by
  refine Sparse.rising_iff.2 ⟨fun _ _ => Nat.zero_le _, ?_⟩
  rw [Sparse.replaceBelow, List.pairwise_append]
  refine ⟨(Sparse.rising_iff.1 hs).2.filter _, (Sparse.rising_iff.1 hd).2.filter _, fun a ha b hb => ?_⟩
  simp only [List.mem_filter, decide_eq_true_eq] at ha hb
  omega

/-- Replacing the cells below `n` keeps the canonical form. -/
theorem Sparse.wf_replaceBelow [DecidableEq α] {dflt : α} {n : Nat} {src dst : Sparse α}
    (hs : Sparse.wf dflt src = true) (hd : Sparse.wf dflt dst = true) :
    Sparse.wf dflt (Sparse.replaceBelow n src dst) = true := by
  rw [Sparse.wf_iff] at hs hd ⊢
  refine ⟨Sparse.rising_replaceBelow hs.1 hd.1, fun e he => ?_⟩
  simp only [Sparse.replaceBelow, List.mem_append, List.mem_filter] at he
  rcases he with he | he
  · exact hs.2 e he.1
  · exact hd.2 e he.1

theorem Sparse.read_filter {dflt : α} (p : Nat → Bool) : ∀ (a : Sparse α) (i : Nat),
    Sparse.read dflt (a.filter fun e => p e.1) i = if p i = true then Sparse.read dflt a i else dflt
  | [], i => by simp
  | (k, v) :: a, i => by
    have ih := Sparse.read_filter (dflt := dflt) p a i
    by_cases hik : i = k
    · subst hik
      by_cases hk : p i = true
      · simp [Sparse.read, hk]
      · simpa [Sparse.read, hk] using ih
    · by_cases hk : p k = true
      · simpa [Sparse.read, hk, hik] using ih
      · simpa [Sparse.read, hk, hik] using ih

/-- Two memories one after the other: a cell the first lists is read there, any other in the second. -/
theorem Sparse.read_append {dflt : α} (b : Sparse α) : ∀ (a : Sparse α) (i : Nat),
    ((∃ e ∈ a, e.1 = i) → Sparse.read dflt (a ++ b) i = Sparse.read dflt a i)
      ∧ ((∀ e ∈ a, e.1 ≠ i) → Sparse.read dflt (a ++ b) i = Sparse.read dflt b i)
  | [], i => by simp
  | (k, v) :: a, i => by
    have ih := Sparse.read_append (dflt := dflt) b a i
    by_cases hik : i = k
    · subst hik; simp [Sparse.read]
    · have hki : ¬ k = i := fun h => hik h.symm
      simpa [Sparse.read, hik, hki] using ih

/-- Replacing the cells below `n`: below `n` the source is read, from `n` on the destination. -/
theorem Sparse.read_replaceBelow {dflt : α} (n : Nat) (src dst : Sparse α) (i : Nat) :
    Sparse.read dflt (Sparse.replaceBelow n src dst) i
      = if i < n then Sparse.read dflt src i else Sparse.read dflt dst i := by
  have hs := Sparse.read_filter (dflt := dflt) (fun k => decide (k < n)) src i
  have hd := Sparse.read_filter (dflt := dflt) (fun k => decide (n ≤ k)) dst i
  have ha := Sparse.read_append (dflt := dflt) (dst.filter fun e => decide (n ≤ e.1))
    (src.filter fun e => decide (e.1 < n)) i
  rw [Sparse.replaceBelow]
  by_cases hm : ∃ e ∈ src.filter fun e => decide (e.1 < n), e.1 = i
  · obtain ⟨e, he, rfl⟩ := hm
    have hlt : e.1 < n := by simpa using (List.mem_filter.1 he).2
    rw [ha.1 ⟨e, he, rfl⟩, hs, if_pos hlt, if_pos (by simpa using hlt)]
  · have hm' : ∀ e ∈ src.filter fun e => decide (e.1 < n), e.1 ≠ i := fun e he h => hm ⟨e, he, h⟩
    rw [ha.2 hm', hd]
    by_cases hi : i < n
    · have := Sparse.read_of_not_mem (dflt := dflt) hm'
      rw [hs, if_pos (by simpa using hi)] at this
      rw [if_pos hi, this, if_neg (by simpa using hi)]
    · rw [if_neg hi, if_pos (by simpa using hi)]

/-- Memories in canonical form that read alike are equal, so that equal memories are equal data. -/
theorem Sparse.eq_of_read [DecidableEq α] {dflt : α} : ∀ {lo : Nat} {a b : Sparse α},
    Sparse.rising lo a = true → Sparse.rising lo b = true → (∀ e ∈ a, e.2 ≠ dflt) → (∀ e ∈ b, e.2 ≠ dflt) →
    (∀ i, Sparse.read dflt a i = Sparse.read dflt b i) → a = b
  | _, [], [], _, _, _, _, _ => rfl
  | _, [], (k, v) :: b, _, _, _, hb, h => absurd (by simpa [Sparse.read] using (h k).symm) (hb (k, v) List.mem_cons_self)
  | _, (k, v) :: a, [], _, _, ha, _, h => absurd (by simpa [Sparse.read] using h k) (ha (k, v) List.mem_cons_self)
  | lo, (k, v) :: a, (k', v') :: b, hra, hrb, ha, hb, h => by
    simp only [Sparse.rising, Bool.and_eq_true, decide_eq_true_eq] at hra hrb
    have hk : k = k' := by
      rcases Nat.lt_trichotomy k k' with hlt | heq | hgt
      · have := h k
        rw [Sparse.read, if_pos rfl, Sparse.read, if_neg (by omega), Sparse.read_below hrb.2 (by omega)] at this
        exact absurd this (ha (k, v) List.mem_cons_self)
      · exact heq
      · have := h k'
        rw [Sparse.read, if_neg (by omega), Sparse.read_below hra.2 (by omega), Sparse.read, if_pos rfl] at this
        exact absurd this.symm (hb (k', v') List.mem_cons_self)
    subst hk
    have hv : v = v' := by simpa [Sparse.read] using h k
    subst hv
    have : a = b := Sparse.eq_of_read hra.2 hrb.2 (fun e he => ha e (List.mem_cons_of_mem _ he))
      (fun e he => hb e (List.mem_cons_of_mem _ he)) fun i => by
        by_cases hi : i = k
        · subst hi
          rw [Sparse.read_below hra.2 (by omega), Sparse.read_below hrb.2 (by omega)]
        · simpa [Sparse.read, hi] using h i
    rw [this]

/-- Two canonical memories are equal exactly when every cell reads alike. -/
theorem Sparse.ext_wf [DecidableEq α] {dflt : α} {a b : Sparse α} (ha : Sparse.wf dflt a = true)
    (hb : Sparse.wf dflt b = true) (h : ∀ i, Sparse.read dflt a i = Sparse.read dflt b i) : a = b :=
  Sparse.eq_of_read (Sparse.wf_iff.1 ha).1 (Sparse.wf_iff.1 hb).1 (Sparse.wf_iff.1 ha).2 (Sparse.wf_iff.1 hb).2 h

end Sys2Proof.Machine
end

