-- ==== Sys2Proof/Laws/State.lean ====
section
/-! SUPPORT. One lemma per field per setter of the state, per flag update of the status and per field of the reset state,
each true by `rfl`, so that no later proof unfolds a record update. -/

namespace Sys2Proof.Machine

@[simp] theorem State.setData_data (s : State) (x : DataRegs) : (s.setData x).data = x := rfl
@[simp] theorem State.setData_status (s : State) (x : DataRegs) : (s.setData x).status = s.status := rfl
@[simp] theorem State.setData_cfg (s : State) (x : DataRegs) : (s.setData x).cfg = s.cfg := rfl
@[simp] theorem State.setData_win (s : State) (x : DataRegs) : (s.setData x).win = s.win := rfl
@[simp] theorem State.setData_pixcnt (s : State) (x : DataRegs) : (s.setData x).pixcnt = s.pixcnt := rfl
@[simp] theorem State.setData_h (s : State) (x : DataRegs) : (s.setData x).h = s.h := rfl
@[simp] theorem State.setData_smooth (s : State) (x : DataRegs) : (s.setData x).smooth = s.smooth := rfl
@[simp] theorem State.setData_tcl (s : State) (x : DataRegs) : (s.setData x).tcl = s.tcl := rfl
@[simp] theorem State.setData_slots (s : State) (x : DataRegs) : (s.setData x).slots = s.slots := rfl
@[simp] theorem State.setData_nslotPred (s : State) (x : DataRegs) : (s.setData x).nslotPred = s.nslotPred := rfl
@[simp] theorem State.setData_pending (s : State) (x : DataRegs) : (s.setData x).pending = s.pending := rfl
@[simp] theorem State.setData_rdata (s : State) (x : DataRegs) : (s.setData x).rdata = s.rdata := rfl
@[simp] theorem State.setData_nslot (s : State) (x : DataRegs) : (s.setData x).nslot = s.nslot := rfl
@[simp] theorem State.setData_d (s : State) (x : DataRegs) : (s.setData x).d = s.d := rfl
@[simp] theorem State.setData_ncell (s : State) (x : DataRegs) : (s.setData x).ncell = s.ncell := rfl
@[simp] theorem State.setData_slotAt (s : State) (x : DataRegs) (k : Nat) : (s.setData x).slotAt k = s.slotAt k := rfl
@[simp] theorem State.setData_slotValid (s : State) (x : DataRegs) (k : Nat) : (s.setData x).slotValid k = s.slotValid k := rfl
@[simp] theorem State.setData_validSlots (s : State) (x : DataRegs) : (s.setData x).validSlots = s.validSlots := rfl

@[simp] theorem State.setStatus_data (s : State) (x : Status) : (s.setStatus x).data = s.data := rfl
@[simp] theorem State.setStatus_status (s : State) (x : Status) : (s.setStatus x).status = x := rfl
@[simp] theorem State.setStatus_cfg (s : State) (x : Status) : (s.setStatus x).cfg = s.cfg := rfl
@[simp] theorem State.setStatus_win (s : State) (x : Status) : (s.setStatus x).win = s.win := rfl
@[simp] theorem State.setStatus_pixcnt (s : State) (x : Status) : (s.setStatus x).pixcnt = s.pixcnt := rfl
@[simp] theorem State.setStatus_h (s : State) (x : Status) : (s.setStatus x).h = s.h := rfl
@[simp] theorem State.setStatus_smooth (s : State) (x : Status) : (s.setStatus x).smooth = s.smooth := rfl
@[simp] theorem State.setStatus_tcl (s : State) (x : Status) : (s.setStatus x).tcl = s.tcl := rfl
@[simp] theorem State.setStatus_slots (s : State) (x : Status) : (s.setStatus x).slots = s.slots := rfl
@[simp] theorem State.setStatus_nslotPred (s : State) (x : Status) : (s.setStatus x).nslotPred = s.nslotPred := rfl
@[simp] theorem State.setStatus_pending (s : State) (x : Status) : (s.setStatus x).pending = s.pending := rfl
@[simp] theorem State.setStatus_rdata (s : State) (x : Status) : (s.setStatus x).rdata = s.rdata := rfl
@[simp] theorem State.setStatus_nslot (s : State) (x : Status) : (s.setStatus x).nslot = s.nslot := rfl
@[simp] theorem State.setStatus_d (s : State) (x : Status) : (s.setStatus x).d = s.d := rfl
@[simp] theorem State.setStatus_ncell (s : State) (x : Status) : (s.setStatus x).ncell = s.ncell := rfl
@[simp] theorem State.setStatus_slotAt (s : State) (x : Status) (k : Nat) : (s.setStatus x).slotAt k = s.slotAt k := rfl
@[simp] theorem State.setStatus_slotValid (s : State) (x : Status) (k : Nat) : (s.setStatus x).slotValid k = s.slotValid k := rfl
@[simp] theorem State.setStatus_validSlots (s : State) (x : Status) : (s.setStatus x).validSlots = s.validSlots := rfl

@[simp] theorem State.setCfg_data (s : State) (x : CfgRegs) : (s.setCfg x).data = s.data := rfl
@[simp] theorem State.setCfg_status (s : State) (x : CfgRegs) : (s.setCfg x).status = s.status := rfl
@[simp] theorem State.setCfg_cfg (s : State) (x : CfgRegs) : (s.setCfg x).cfg = x := rfl
@[simp] theorem State.setCfg_win (s : State) (x : CfgRegs) : (s.setCfg x).win = s.win := rfl
@[simp] theorem State.setCfg_pixcnt (s : State) (x : CfgRegs) : (s.setCfg x).pixcnt = s.pixcnt := rfl
@[simp] theorem State.setCfg_h (s : State) (x : CfgRegs) : (s.setCfg x).h = s.h := rfl
@[simp] theorem State.setCfg_smooth (s : State) (x : CfgRegs) : (s.setCfg x).smooth = s.smooth := rfl
@[simp] theorem State.setCfg_tcl (s : State) (x : CfgRegs) : (s.setCfg x).tcl = s.tcl := rfl
@[simp] theorem State.setCfg_slots (s : State) (x : CfgRegs) : (s.setCfg x).slots = s.slots := rfl
@[simp] theorem State.setCfg_nslotPred (s : State) (x : CfgRegs) : (s.setCfg x).nslotPred = s.nslotPred := rfl
@[simp] theorem State.setCfg_pending (s : State) (x : CfgRegs) : (s.setCfg x).pending = s.pending := rfl
@[simp] theorem State.setCfg_rdata (s : State) (x : CfgRegs) : (s.setCfg x).rdata = s.rdata := rfl
@[simp] theorem State.setCfg_nslot (s : State) (x : CfgRegs) : (s.setCfg x).nslot = s.nslot := rfl
@[simp] theorem State.setCfg_slotAt (s : State) (x : CfgRegs) (k : Nat) : (s.setCfg x).slotAt k = s.slotAt k := rfl
@[simp] theorem State.setCfg_slotValid (s : State) (x : CfgRegs) (k : Nat) : (s.setCfg x).slotValid k = s.slotValid k := rfl
@[simp] theorem State.setCfg_validSlots (s : State) (x : CfgRegs) : (s.setCfg x).validSlots = s.validSlots := rfl

@[simp] theorem State.setWin_data (s : State) (x : WinRegs) : (s.setWin x).data = s.data := rfl
@[simp] theorem State.setWin_status (s : State) (x : WinRegs) : (s.setWin x).status = s.status := rfl
@[simp] theorem State.setWin_cfg (s : State) (x : WinRegs) : (s.setWin x).cfg = s.cfg := rfl
@[simp] theorem State.setWin_win (s : State) (x : WinRegs) : (s.setWin x).win = x := rfl
@[simp] theorem State.setWin_pixcnt (s : State) (x : WinRegs) : (s.setWin x).pixcnt = s.pixcnt := rfl
@[simp] theorem State.setWin_h (s : State) (x : WinRegs) : (s.setWin x).h = s.h := rfl
@[simp] theorem State.setWin_smooth (s : State) (x : WinRegs) : (s.setWin x).smooth = s.smooth := rfl
@[simp] theorem State.setWin_tcl (s : State) (x : WinRegs) : (s.setWin x).tcl = s.tcl := rfl
@[simp] theorem State.setWin_slots (s : State) (x : WinRegs) : (s.setWin x).slots = s.slots := rfl
@[simp] theorem State.setWin_nslotPred (s : State) (x : WinRegs) : (s.setWin x).nslotPred = s.nslotPred := rfl
@[simp] theorem State.setWin_pending (s : State) (x : WinRegs) : (s.setWin x).pending = s.pending := rfl
@[simp] theorem State.setWin_rdata (s : State) (x : WinRegs) : (s.setWin x).rdata = s.rdata := rfl
@[simp] theorem State.setWin_nslot (s : State) (x : WinRegs) : (s.setWin x).nslot = s.nslot := rfl
@[simp] theorem State.setWin_d (s : State) (x : WinRegs) : (s.setWin x).d = s.d := rfl
@[simp] theorem State.setWin_ncell (s : State) (x : WinRegs) : (s.setWin x).ncell = s.ncell := rfl
@[simp] theorem State.setWin_slotAt (s : State) (x : WinRegs) (k : Nat) : (s.setWin x).slotAt k = s.slotAt k := rfl
@[simp] theorem State.setWin_slotValid (s : State) (x : WinRegs) (k : Nat) : (s.setWin x).slotValid k = s.slotValid k := rfl
@[simp] theorem State.setWin_validSlots (s : State) (x : WinRegs) : (s.setWin x).validSlots = s.validSlots := rfl

@[simp] theorem State.setPixcnt_data (s : State) (x : BitVec 24) : (s.setPixcnt x).data = s.data := rfl
@[simp] theorem State.setPixcnt_status (s : State) (x : BitVec 24) : (s.setPixcnt x).status = s.status := rfl
@[simp] theorem State.setPixcnt_cfg (s : State) (x : BitVec 24) : (s.setPixcnt x).cfg = s.cfg := rfl
@[simp] theorem State.setPixcnt_win (s : State) (x : BitVec 24) : (s.setPixcnt x).win = s.win := rfl
@[simp] theorem State.setPixcnt_pixcnt (s : State) (x : BitVec 24) : (s.setPixcnt x).pixcnt = x := rfl
@[simp] theorem State.setPixcnt_h (s : State) (x : BitVec 24) : (s.setPixcnt x).h = s.h := rfl
@[simp] theorem State.setPixcnt_smooth (s : State) (x : BitVec 24) : (s.setPixcnt x).smooth = s.smooth := rfl
@[simp] theorem State.setPixcnt_tcl (s : State) (x : BitVec 24) : (s.setPixcnt x).tcl = s.tcl := rfl
@[simp] theorem State.setPixcnt_slots (s : State) (x : BitVec 24) : (s.setPixcnt x).slots = s.slots := rfl
@[simp] theorem State.setPixcnt_nslotPred (s : State) (x : BitVec 24) : (s.setPixcnt x).nslotPred = s.nslotPred := rfl
@[simp] theorem State.setPixcnt_pending (s : State) (x : BitVec 24) : (s.setPixcnt x).pending = s.pending := rfl
@[simp] theorem State.setPixcnt_rdata (s : State) (x : BitVec 24) : (s.setPixcnt x).rdata = s.rdata := rfl
@[simp] theorem State.setPixcnt_nslot (s : State) (x : BitVec 24) : (s.setPixcnt x).nslot = s.nslot := rfl
@[simp] theorem State.setPixcnt_d (s : State) (x : BitVec 24) : (s.setPixcnt x).d = s.d := rfl
@[simp] theorem State.setPixcnt_ncell (s : State) (x : BitVec 24) : (s.setPixcnt x).ncell = s.ncell := rfl
@[simp] theorem State.setPixcnt_slotAt (s : State) (x : BitVec 24) (k : Nat) : (s.setPixcnt x).slotAt k = s.slotAt k := rfl
@[simp] theorem State.setPixcnt_slotValid (s : State) (x : BitVec 24) (k : Nat) : (s.setPixcnt x).slotValid k = s.slotValid k := rfl
@[simp] theorem State.setPixcnt_validSlots (s : State) (x : BitVec 24) : (s.setPixcnt x).validSlots = s.validSlots := rfl

@[simp] theorem State.setH_data (s : State) (x : Sparse (BitVec 24)) : (s.setH x).data = s.data := rfl
@[simp] theorem State.setH_status (s : State) (x : Sparse (BitVec 24)) : (s.setH x).status = s.status := rfl
@[simp] theorem State.setH_cfg (s : State) (x : Sparse (BitVec 24)) : (s.setH x).cfg = s.cfg := rfl
@[simp] theorem State.setH_win (s : State) (x : Sparse (BitVec 24)) : (s.setH x).win = s.win := rfl
@[simp] theorem State.setH_pixcnt (s : State) (x : Sparse (BitVec 24)) : (s.setH x).pixcnt = s.pixcnt := rfl
@[simp] theorem State.setH_h (s : State) (x : Sparse (BitVec 24)) : (s.setH x).h = x := rfl
@[simp] theorem State.setH_smooth (s : State) (x : Sparse (BitVec 24)) : (s.setH x).smooth = s.smooth := rfl
@[simp] theorem State.setH_tcl (s : State) (x : Sparse (BitVec 24)) : (s.setH x).tcl = s.tcl := rfl
@[simp] theorem State.setH_slots (s : State) (x : Sparse (BitVec 24)) : (s.setH x).slots = s.slots := rfl
@[simp] theorem State.setH_nslotPred (s : State) (x : Sparse (BitVec 24)) : (s.setH x).nslotPred = s.nslotPred := rfl
@[simp] theorem State.setH_pending (s : State) (x : Sparse (BitVec 24)) : (s.setH x).pending = s.pending := rfl
@[simp] theorem State.setH_rdata (s : State) (x : Sparse (BitVec 24)) : (s.setH x).rdata = s.rdata := rfl
@[simp] theorem State.setH_nslot (s : State) (x : Sparse (BitVec 24)) : (s.setH x).nslot = s.nslot := rfl
@[simp] theorem State.setH_d (s : State) (x : Sparse (BitVec 24)) : (s.setH x).d = s.d := rfl
@[simp] theorem State.setH_ncell (s : State) (x : Sparse (BitVec 24)) : (s.setH x).ncell = s.ncell := rfl
@[simp] theorem State.setH_slotAt (s : State) (x : Sparse (BitVec 24)) (k : Nat) : (s.setH x).slotAt k = s.slotAt k := rfl
@[simp] theorem State.setH_slotValid (s : State) (x : Sparse (BitVec 24)) (k : Nat) : (s.setH x).slotValid k = s.slotValid k := rfl
@[simp] theorem State.setH_validSlots (s : State) (x : Sparse (BitVec 24)) : (s.setH x).validSlots = s.validSlots := rfl

@[simp] theorem State.setSmooth_data (s : State) (x : Sparse (BitVec 48)) : (s.setSmooth x).data = s.data := rfl
@[simp] theorem State.setSmooth_status (s : State) (x : Sparse (BitVec 48)) : (s.setSmooth x).status = s.status := rfl
@[simp] theorem State.setSmooth_cfg (s : State) (x : Sparse (BitVec 48)) : (s.setSmooth x).cfg = s.cfg := rfl
@[simp] theorem State.setSmooth_win (s : State) (x : Sparse (BitVec 48)) : (s.setSmooth x).win = s.win := rfl
@[simp] theorem State.setSmooth_pixcnt (s : State) (x : Sparse (BitVec 48)) : (s.setSmooth x).pixcnt = s.pixcnt := rfl
@[simp] theorem State.setSmooth_h (s : State) (x : Sparse (BitVec 48)) : (s.setSmooth x).h = s.h := rfl
@[simp] theorem State.setSmooth_smooth (s : State) (x : Sparse (BitVec 48)) : (s.setSmooth x).smooth = x := rfl
@[simp] theorem State.setSmooth_tcl (s : State) (x : Sparse (BitVec 48)) : (s.setSmooth x).tcl = s.tcl := rfl
@[simp] theorem State.setSmooth_slots (s : State) (x : Sparse (BitVec 48)) : (s.setSmooth x).slots = s.slots := rfl
@[simp] theorem State.setSmooth_nslotPred (s : State) (x : Sparse (BitVec 48)) : (s.setSmooth x).nslotPred = s.nslotPred := rfl
@[simp] theorem State.setSmooth_pending (s : State) (x : Sparse (BitVec 48)) : (s.setSmooth x).pending = s.pending := rfl
@[simp] theorem State.setSmooth_rdata (s : State) (x : Sparse (BitVec 48)) : (s.setSmooth x).rdata = s.rdata := rfl
@[simp] theorem State.setSmooth_nslot (s : State) (x : Sparse (BitVec 48)) : (s.setSmooth x).nslot = s.nslot := rfl
@[simp] theorem State.setSmooth_d (s : State) (x : Sparse (BitVec 48)) : (s.setSmooth x).d = s.d := rfl
@[simp] theorem State.setSmooth_ncell (s : State) (x : Sparse (BitVec 48)) : (s.setSmooth x).ncell = s.ncell := rfl
@[simp] theorem State.setSmooth_slotAt (s : State) (x : Sparse (BitVec 48)) (k : Nat) : (s.setSmooth x).slotAt k = s.slotAt k := rfl
@[simp] theorem State.setSmooth_slotValid (s : State) (x : Sparse (BitVec 48)) (k : Nat) : (s.setSmooth x).slotValid k = s.slotValid k := rfl
@[simp] theorem State.setSmooth_validSlots (s : State) (x : Sparse (BitVec 48)) : (s.setSmooth x).validSlots = s.validSlots := rfl

@[simp] theorem State.setTcl_data (s : State) (x : List Cluster) : (s.setTcl x).data = s.data := rfl
@[simp] theorem State.setTcl_status (s : State) (x : List Cluster) : (s.setTcl x).status = s.status := rfl
@[simp] theorem State.setTcl_cfg (s : State) (x : List Cluster) : (s.setTcl x).cfg = s.cfg := rfl
@[simp] theorem State.setTcl_win (s : State) (x : List Cluster) : (s.setTcl x).win = s.win := rfl
@[simp] theorem State.setTcl_pixcnt (s : State) (x : List Cluster) : (s.setTcl x).pixcnt = s.pixcnt := rfl
@[simp] theorem State.setTcl_h (s : State) (x : List Cluster) : (s.setTcl x).h = s.h := rfl
@[simp] theorem State.setTcl_smooth (s : State) (x : List Cluster) : (s.setTcl x).smooth = s.smooth := rfl
@[simp] theorem State.setTcl_tcl (s : State) (x : List Cluster) : (s.setTcl x).tcl = x := rfl
@[simp] theorem State.setTcl_slots (s : State) (x : List Cluster) : (s.setTcl x).slots = s.slots := rfl
@[simp] theorem State.setTcl_nslotPred (s : State) (x : List Cluster) : (s.setTcl x).nslotPred = s.nslotPred := rfl
@[simp] theorem State.setTcl_pending (s : State) (x : List Cluster) : (s.setTcl x).pending = s.pending := rfl
@[simp] theorem State.setTcl_rdata (s : State) (x : List Cluster) : (s.setTcl x).rdata = s.rdata := rfl
@[simp] theorem State.setTcl_nslot (s : State) (x : List Cluster) : (s.setTcl x).nslot = s.nslot := rfl
@[simp] theorem State.setTcl_d (s : State) (x : List Cluster) : (s.setTcl x).d = s.d := rfl
@[simp] theorem State.setTcl_ncell (s : State) (x : List Cluster) : (s.setTcl x).ncell = s.ncell := rfl
@[simp] theorem State.setTcl_slotAt (s : State) (x : List Cluster) (k : Nat) : (s.setTcl x).slotAt k = s.slotAt k := rfl
@[simp] theorem State.setTcl_slotValid (s : State) (x : List Cluster) (k : Nat) : (s.setTcl x).slotValid k = s.slotValid k := rfl
@[simp] theorem State.setTcl_validSlots (s : State) (x : List Cluster) : (s.setTcl x).validSlots = s.validSlots := rfl

@[simp] theorem State.setSlots_data (s : State) (x : Sparse Slot) : (s.setSlots x).data = s.data := rfl
@[simp] theorem State.setSlots_status (s : State) (x : Sparse Slot) : (s.setSlots x).status = s.status := rfl
@[simp] theorem State.setSlots_cfg (s : State) (x : Sparse Slot) : (s.setSlots x).cfg = s.cfg := rfl
@[simp] theorem State.setSlots_win (s : State) (x : Sparse Slot) : (s.setSlots x).win = s.win := rfl
@[simp] theorem State.setSlots_pixcnt (s : State) (x : Sparse Slot) : (s.setSlots x).pixcnt = s.pixcnt := rfl
@[simp] theorem State.setSlots_h (s : State) (x : Sparse Slot) : (s.setSlots x).h = s.h := rfl
@[simp] theorem State.setSlots_smooth (s : State) (x : Sparse Slot) : (s.setSlots x).smooth = s.smooth := rfl
@[simp] theorem State.setSlots_tcl (s : State) (x : Sparse Slot) : (s.setSlots x).tcl = s.tcl := rfl
@[simp] theorem State.setSlots_slots (s : State) (x : Sparse Slot) : (s.setSlots x).slots = x := rfl
@[simp] theorem State.setSlots_nslotPred (s : State) (x : Sparse Slot) : (s.setSlots x).nslotPred = s.nslotPred := rfl
@[simp] theorem State.setSlots_pending (s : State) (x : Sparse Slot) : (s.setSlots x).pending = s.pending := rfl
@[simp] theorem State.setSlots_rdata (s : State) (x : Sparse Slot) : (s.setSlots x).rdata = s.rdata := rfl
@[simp] theorem State.setSlots_nslot (s : State) (x : Sparse Slot) : (s.setSlots x).nslot = s.nslot := rfl
@[simp] theorem State.setSlots_d (s : State) (x : Sparse Slot) : (s.setSlots x).d = s.d := rfl
@[simp] theorem State.setSlots_ncell (s : State) (x : Sparse Slot) : (s.setSlots x).ncell = s.ncell := rfl

@[simp] theorem State.setPending_data (s : State) (x : List Access) : (s.setPending x).data = s.data := rfl
@[simp] theorem State.setPending_status (s : State) (x : List Access) : (s.setPending x).status = s.status := rfl
@[simp] theorem State.setPending_cfg (s : State) (x : List Access) : (s.setPending x).cfg = s.cfg := rfl
@[simp] theorem State.setPending_win (s : State) (x : List Access) : (s.setPending x).win = s.win := rfl
@[simp] theorem State.setPending_pixcnt (s : State) (x : List Access) : (s.setPending x).pixcnt = s.pixcnt := rfl
@[simp] theorem State.setPending_h (s : State) (x : List Access) : (s.setPending x).h = s.h := rfl
@[simp] theorem State.setPending_smooth (s : State) (x : List Access) : (s.setPending x).smooth = s.smooth := rfl
@[simp] theorem State.setPending_tcl (s : State) (x : List Access) : (s.setPending x).tcl = s.tcl := rfl
@[simp] theorem State.setPending_slots (s : State) (x : List Access) : (s.setPending x).slots = s.slots := rfl
@[simp] theorem State.setPending_nslotPred (s : State) (x : List Access) : (s.setPending x).nslotPred = s.nslotPred := rfl
@[simp] theorem State.setPending_pending (s : State) (x : List Access) : (s.setPending x).pending = x := rfl
@[simp] theorem State.setPending_rdata (s : State) (x : List Access) : (s.setPending x).rdata = s.rdata := rfl
@[simp] theorem State.setPending_nslot (s : State) (x : List Access) : (s.setPending x).nslot = s.nslot := rfl
@[simp] theorem State.setPending_d (s : State) (x : List Access) : (s.setPending x).d = s.d := rfl
@[simp] theorem State.setPending_ncell (s : State) (x : List Access) : (s.setPending x).ncell = s.ncell := rfl
@[simp] theorem State.setPending_slotAt (s : State) (x : List Access) (k : Nat) : (s.setPending x).slotAt k = s.slotAt k := rfl
@[simp] theorem State.setPending_slotValid (s : State) (x : List Access) (k : Nat) : (s.setPending x).slotValid k = s.slotValid k := rfl
@[simp] theorem State.setPending_validSlots (s : State) (x : List Access) : (s.setPending x).validSlots = s.validSlots := rfl

@[simp] theorem State.setRdata_data (s : State) (x : Word) : (s.setRdata x).data = s.data := rfl
@[simp] theorem State.setRdata_status (s : State) (x : Word) : (s.setRdata x).status = s.status := rfl
@[simp] theorem State.setRdata_cfg (s : State) (x : Word) : (s.setRdata x).cfg = s.cfg := rfl
@[simp] theorem State.setRdata_win (s : State) (x : Word) : (s.setRdata x).win = s.win := rfl
@[simp] theorem State.setRdata_pixcnt (s : State) (x : Word) : (s.setRdata x).pixcnt = s.pixcnt := rfl
@[simp] theorem State.setRdata_h (s : State) (x : Word) : (s.setRdata x).h = s.h := rfl
@[simp] theorem State.setRdata_smooth (s : State) (x : Word) : (s.setRdata x).smooth = s.smooth := rfl
@[simp] theorem State.setRdata_tcl (s : State) (x : Word) : (s.setRdata x).tcl = s.tcl := rfl
@[simp] theorem State.setRdata_slots (s : State) (x : Word) : (s.setRdata x).slots = s.slots := rfl
@[simp] theorem State.setRdata_nslotPred (s : State) (x : Word) : (s.setRdata x).nslotPred = s.nslotPred := rfl
@[simp] theorem State.setRdata_pending (s : State) (x : Word) : (s.setRdata x).pending = s.pending := rfl
@[simp] theorem State.setRdata_rdata (s : State) (x : Word) : (s.setRdata x).rdata = x := rfl
@[simp] theorem State.setRdata_nslot (s : State) (x : Word) : (s.setRdata x).nslot = s.nslot := rfl
@[simp] theorem State.setRdata_d (s : State) (x : Word) : (s.setRdata x).d = s.d := rfl
@[simp] theorem State.setRdata_ncell (s : State) (x : Word) : (s.setRdata x).ncell = s.ncell := rfl
@[simp] theorem State.setRdata_slotAt (s : State) (x : Word) (k : Nat) : (s.setRdata x).slotAt k = s.slotAt k := rfl
@[simp] theorem State.setRdata_slotValid (s : State) (x : Word) (k : Nat) : (s.setRdata x).slotValid k = s.slotValid k := rfl
@[simp] theorem State.setRdata_validSlots (s : State) (x : Word) : (s.setRdata x).validSlots = s.validSlots := rfl

@[simp] theorem Status.cleared_err (x : Status) : x.cleared.err = x.err := rfl
@[simp] theorem Status.cleared_sealed (x : Status) : x.cleared.sealed = x.sealed := rfl
@[simp] theorem Status.cleared_hInit (x : Status) : x.cleared.hInit = true := rfl
@[simp] theorem Status.cleared_sValid (x : Status) : x.cleared.sValid = false := rfl
@[simp] theorem Status.cleared_pkValid (x : Status) : x.cleared.pkValid = false := rfl
@[simp] theorem Status.cleared_degen (x : Status) : x.cleared.degen = x.degen := rfl
@[simp] theorem Status.cleared_bestValid (x : Status) : x.cleared.bestValid = x.bestValid := rfl
@[simp] theorem Status.cleared_errCode (x : Status) : x.cleared.errCode = x.errCode := rfl
@[simp] theorem Status.cleared_errInfo (x : Status) : x.cleared.errInfo = x.errInfo := rfl

@[simp] theorem Status.accumulated_err (x : Status) : x.accumulated.err = x.err := rfl
@[simp] theorem Status.accumulated_sealed (x : Status) : x.accumulated.sealed = x.sealed := rfl
@[simp] theorem Status.accumulated_hInit (x : Status) : x.accumulated.hInit = x.hInit := rfl
@[simp] theorem Status.accumulated_sValid (x : Status) : x.accumulated.sValid = false := rfl
@[simp] theorem Status.accumulated_pkValid (x : Status) : x.accumulated.pkValid = false := rfl
@[simp] theorem Status.accumulated_degen (x : Status) : x.accumulated.degen = x.degen := rfl
@[simp] theorem Status.accumulated_bestValid (x : Status) : x.accumulated.bestValid = x.bestValid := rfl
@[simp] theorem Status.accumulated_errCode (x : Status) : x.accumulated.errCode = x.errCode := rfl
@[simp] theorem Status.accumulated_errInfo (x : Status) : x.accumulated.errInfo = x.errInfo := rfl

@[simp] theorem Status.smoothed_err (x : Status) : x.smoothed.err = x.err := rfl
@[simp] theorem Status.smoothed_sealed (x : Status) : x.smoothed.sealed = x.sealed := rfl
@[simp] theorem Status.smoothed_hInit (x : Status) : x.smoothed.hInit = x.hInit := rfl
@[simp] theorem Status.smoothed_sValid (x : Status) : x.smoothed.sValid = true := rfl
@[simp] theorem Status.smoothed_pkValid (x : Status) : x.smoothed.pkValid = false := rfl
@[simp] theorem Status.smoothed_degen (x : Status) : x.smoothed.degen = x.degen := rfl
@[simp] theorem Status.smoothed_bestValid (x : Status) : x.smoothed.bestValid = x.bestValid := rfl
@[simp] theorem Status.smoothed_errCode (x : Status) : x.smoothed.errCode = x.errCode := rfl
@[simp] theorem Status.smoothed_errInfo (x : Status) : x.smoothed.errInfo = x.errInfo := rfl

@[simp] theorem Status.extracted_err (x : Status) : x.extracted.err = x.err := rfl
@[simp] theorem Status.extracted_sealed (x : Status) : x.extracted.sealed = x.sealed := rfl
@[simp] theorem Status.extracted_hInit (x : Status) : x.extracted.hInit = x.hInit := rfl
@[simp] theorem Status.extracted_sValid (x : Status) : x.extracted.sValid = x.sValid := rfl
@[simp] theorem Status.extracted_pkValid (x : Status) : x.extracted.pkValid = true := rfl
@[simp] theorem Status.extracted_degen (x : Status) : x.extracted.degen = x.degen := rfl
@[simp] theorem Status.extracted_bestValid (x : Status) : x.extracted.bestValid = x.bestValid := rfl
@[simp] theorem Status.extracted_errCode (x : Status) : x.extracted.errCode = x.errCode := rfl
@[simp] theorem Status.extracted_errInfo (x : Status) : x.extracted.errInfo = x.errInfo := rfl

@[simp] theorem Status.seal_err (x : Status) : x.seal.err = x.err := rfl
@[simp] theorem Status.seal_sealed (x : Status) : x.seal.sealed = true := rfl
@[simp] theorem Status.seal_hInit (x : Status) : x.seal.hInit = x.hInit := rfl
@[simp] theorem Status.seal_sValid (x : Status) : x.seal.sValid = x.sValid := rfl
@[simp] theorem Status.seal_pkValid (x : Status) : x.seal.pkValid = x.pkValid := rfl
@[simp] theorem Status.seal_degen (x : Status) : x.seal.degen = x.degen := rfl
@[simp] theorem Status.seal_bestValid (x : Status) : x.seal.bestValid = x.bestValid := rfl
@[simp] theorem Status.seal_errCode (x : Status) : x.seal.errCode = x.errCode := rfl
@[simp] theorem Status.seal_errInfo (x : Status) : x.seal.errInfo = x.errInfo := rfl

@[simp] theorem Status.scored_err (x : Status) (g : Bool) : (x.scored g).err = x.err := rfl
@[simp] theorem Status.scored_sealed (x : Status) (g : Bool) : (x.scored g).sealed = x.sealed := rfl
@[simp] theorem Status.scored_hInit (x : Status) (g : Bool) : (x.scored g).hInit = x.hInit := rfl
@[simp] theorem Status.scored_sValid (x : Status) (g : Bool) : (x.scored g).sValid = x.sValid := rfl
@[simp] theorem Status.scored_pkValid (x : Status) (g : Bool) : (x.scored g).pkValid = x.pkValid := rfl
@[simp] theorem Status.scored_degen (x : Status) (g : Bool) : (x.scored g).degen = g := rfl
@[simp] theorem Status.scored_bestValid (x : Status) (g : Bool) : (x.scored g).bestValid = x.bestValid := rfl
@[simp] theorem Status.scored_errCode (x : Status) (g : Bool) : (x.scored g).errCode = x.errCode := rfl
@[simp] theorem Status.scored_errInfo (x : Status) (g : Bool) : (x.scored g).errInfo = x.errInfo := rfl

@[simp] theorem Status.matched_err (x : Status) (g : Bool) : (x.matched g).err = x.err := rfl
@[simp] theorem Status.matched_sealed (x : Status) (g : Bool) : (x.matched g).sealed = x.sealed := rfl
@[simp] theorem Status.matched_hInit (x : Status) (g : Bool) : (x.matched g).hInit = x.hInit := rfl
@[simp] theorem Status.matched_sValid (x : Status) (g : Bool) : (x.matched g).sValid = x.sValid := rfl
@[simp] theorem Status.matched_pkValid (x : Status) (g : Bool) : (x.matched g).pkValid = x.pkValid := rfl
@[simp] theorem Status.matched_degen (x : Status) (g : Bool) : (x.matched g).degen = g := rfl
@[simp] theorem Status.matched_bestValid (x : Status) (g : Bool) : (x.matched g).bestValid = true := rfl
@[simp] theorem Status.matched_errCode (x : Status) (g : Bool) : (x.matched g).errCode = x.errCode := rfl
@[simp] theorem Status.matched_errInfo (x : Status) (g : Bool) : (x.matched g).errInfo = x.errInfo := rfl

@[simp] theorem Status.uncleared_err (x : Status) : x.uncleared.err = x.err := rfl
@[simp] theorem Status.uncleared_sealed (x : Status) : x.uncleared.sealed = x.sealed := rfl
@[simp] theorem Status.uncleared_hInit (x : Status) : x.uncleared.hInit = false := rfl
@[simp] theorem Status.uncleared_sValid (x : Status) : x.uncleared.sValid = x.sValid := rfl
@[simp] theorem Status.uncleared_pkValid (x : Status) : x.uncleared.pkValid = x.pkValid := rfl
@[simp] theorem Status.uncleared_degen (x : Status) : x.uncleared.degen = x.degen := rfl
@[simp] theorem Status.uncleared_bestValid (x : Status) : x.uncleared.bestValid = x.bestValid := rfl
@[simp] theorem Status.uncleared_errCode (x : Status) : x.uncleared.errCode = x.errCode := rfl
@[simp] theorem Status.uncleared_errInfo (x : Status) : x.uncleared.errInfo = x.errInfo := rfl

@[simp] theorem State.resetWith_data (n : Fin 65536) : (State.resetWith n).data = .reset := rfl
@[simp] theorem State.resetWith_status (n : Fin 65536) : (State.resetWith n).status = .reset := rfl
@[simp] theorem State.resetWith_cfg (n : Fin 65536) : (State.resetWith n).cfg = .reset := rfl
@[simp] theorem State.resetWith_win (n : Fin 65536) : (State.resetWith n).win = .reset := rfl
@[simp] theorem State.resetWith_pixcnt (n : Fin 65536) : (State.resetWith n).pixcnt = 0#24 := rfl
@[simp] theorem State.resetWith_h (n : Fin 65536) : (State.resetWith n).h = [] := rfl
@[simp] theorem State.resetWith_smooth (n : Fin 65536) : (State.resetWith n).smooth = [] := rfl
@[simp] theorem State.resetWith_tcl (n : Fin 65536) : (State.resetWith n).tcl = [] := rfl
@[simp] theorem State.resetWith_slots (n : Fin 65536) : (State.resetWith n).slots = [] := rfl
@[simp] theorem State.resetWith_nslotPred (n : Fin 65536) : (State.resetWith n).nslotPred = n := rfl
@[simp] theorem State.resetWith_pending (n : Fin 65536) : (State.resetWith n).pending = [] := rfl
@[simp] theorem State.resetWith_rdata (n : Fin 65536) : (State.resetWith n).rdata = 0#32 := rfl

@[simp] theorem State.toReset_data (s : State) : s.toReset.data = .reset := rfl
@[simp] theorem State.toReset_status (s : State) : s.toReset.status = .reset := rfl
@[simp] theorem State.toReset_cfg (s : State) : s.toReset.cfg = .reset := rfl
@[simp] theorem State.toReset_win (s : State) : s.toReset.win = .reset := rfl
@[simp] theorem State.toReset_pixcnt (s : State) : s.toReset.pixcnt = 0#24 := rfl
@[simp] theorem State.toReset_h (s : State) : s.toReset.h = [] := rfl
@[simp] theorem State.toReset_smooth (s : State) : s.toReset.smooth = [] := rfl
@[simp] theorem State.toReset_tcl (s : State) : s.toReset.tcl = [] := rfl
@[simp] theorem State.toReset_slots (s : State) : s.toReset.slots = [] := rfl
@[simp] theorem State.toReset_nslotPred (s : State) : s.toReset.nslotPred = s.nslotPred := rfl
@[simp] theorem State.toReset_pending (s : State) : s.toReset.pending = s.pending := rfl
@[simp] theorem State.toReset_rdata (s : State) : s.toReset.rdata = s.rdata := rfl

end Sys2Proof.Machine
end

