-- ==== Sys2Proof/Laws/Ops.lean ====
section
/-! SUPPORT. What each shared operation can do, said once: faults, the `ERR` gate, checks, slots, counting a pixel. -/

namespace Sys2Proof.Machine

/-! ## Faults (60_exceptions R191) -/

theorem ErrCode.code_range (c : ErrCode) : 1 ≤ c.code.toNat ∧ c.code.toNat ≤ 12 := by cases c <;> decide

/-- Taking a fault while none is latched: the record is written and nothing else. -/
theorem State.raise_of_clear {s : State} (h : s.status.err = false) (c : ErrCode) (info : Word) :
    s.raise c info = s.setStatus { s.status with err := true, errCode := c.code, errInfo := info } := by
  simp [State.raise, h]

/-- The first fault wins. -/
theorem State.raise_of_err {s : State} (h : s.status.err = true) (c : ErrCode) (info : Word) : s.raise c info = s := by
  simp [State.raise, h]

/-- Taking a fault is a change of the status alone. -/
theorem State.raise_eq (s : State) (c : ErrCode) (info : Word) : s.raise c info = s.setStatus (s.raise c info).status := by
  cases h : s.status.err
  · simp [State.raise, h]
  · simp [State.raise, h]; rfl

@[simp] theorem State.raise_data (s : State) (c : ErrCode) (w : Word) : (s.raise c w).data = s.data := by
  rw [State.raise_eq]; rfl
@[simp] theorem State.raise_cfg (s : State) (c : ErrCode) (w : Word) : (s.raise c w).cfg = s.cfg := by
  rw [State.raise_eq]; rfl
@[simp] theorem State.raise_win (s : State) (c : ErrCode) (w : Word) : (s.raise c w).win = s.win := by
  rw [State.raise_eq]; rfl
@[simp] theorem State.raise_pixcnt (s : State) (c : ErrCode) (w : Word) : (s.raise c w).pixcnt = s.pixcnt := by
  rw [State.raise_eq]; rfl
@[simp] theorem State.raise_h (s : State) (c : ErrCode) (w : Word) : (s.raise c w).h = s.h := by
  rw [State.raise_eq]; rfl
@[simp] theorem State.raise_smooth (s : State) (c : ErrCode) (w : Word) : (s.raise c w).smooth = s.smooth := by
  rw [State.raise_eq]; rfl
@[simp] theorem State.raise_tcl (s : State) (c : ErrCode) (w : Word) : (s.raise c w).tcl = s.tcl := by
  rw [State.raise_eq]; rfl
@[simp] theorem State.raise_slots (s : State) (c : ErrCode) (w : Word) : (s.raise c w).slots = s.slots := by
  rw [State.raise_eq]; rfl
@[simp] theorem State.raise_nslotPred (s : State) (c : ErrCode) (w : Word) :
    (s.raise c w).nslotPred = s.nslotPred := by rw [State.raise_eq]; rfl
@[simp] theorem State.raise_pending (s : State) (c : ErrCode) (w : Word) : (s.raise c w).pending = s.pending := by
  rw [State.raise_eq]; rfl
@[simp] theorem State.raise_rdata (s : State) (c : ErrCode) (w : Word) : (s.raise c w).rdata = s.rdata := by
  rw [State.raise_eq]; rfl

@[simp] theorem State.raise_err (s : State) (c : ErrCode) (w : Word) : (s.raise c w).status.err = true := by
  cases h : s.status.err <;> simp [State.raise, h]
@[simp] theorem State.raise_sealed (s : State) (c : ErrCode) (w : Word) :
    (s.raise c w).status.sealed = s.status.sealed := by cases h : s.status.err <;> simp [State.raise, h]
@[simp] theorem State.raise_hInit (s : State) (c : ErrCode) (w : Word) :
    (s.raise c w).status.hInit = s.status.hInit := by cases h : s.status.err <;> simp [State.raise, h]
@[simp] theorem State.raise_sValid (s : State) (c : ErrCode) (w : Word) :
    (s.raise c w).status.sValid = s.status.sValid := by cases h : s.status.err <;> simp [State.raise, h]
@[simp] theorem State.raise_pkValid (s : State) (c : ErrCode) (w : Word) :
    (s.raise c w).status.pkValid = s.status.pkValid := by cases h : s.status.err <;> simp [State.raise, h]
@[simp] theorem State.raise_degen (s : State) (c : ErrCode) (w : Word) :
    (s.raise c w).status.degen = s.status.degen := by cases h : s.status.err <;> simp [State.raise, h]
@[simp] theorem State.raise_bestValid (s : State) (c : ErrCode) (w : Word) :
    (s.raise c w).status.bestValid = s.status.bestValid := by cases h : s.status.err <;> simp [State.raise, h]

/-! ## The gate and the checks (60_exceptions R193, R194) -/

theorem State.gate_of_clear {s : State} (h : s.status.err = false) (e : State) : s.gate e = e := by simp [State.gate, h]

theorem State.gate_of_err {s : State} (h : s.status.err = true) (e : State) : s.gate e = s := by simp [State.gate, h]

/-- A command answers a next state, the gated effect. -/
theorem State.command_eq (s e : State) : s.command e = .next (s.gate e) := rfl

theorem State.command_of_clear {s : State} (h : s.status.err = false) (e : State) : s.command e = .next e := by
  rw [State.command_eq, State.gate_of_clear h]

theorem State.command_of_err {s : State} (h : s.status.err = true) (e : State) : s.command e = .next s := by
  rw [State.command_eq, State.gate_of_err h]

/-- What a command's step can be: dropped while a fault is latched, else its effect. -/
theorem State.command_cases {s e t : State} (h : s.command e = .next t) :
    (s.status.err = true ∧ t = s) ∨ (s.status.err = false ∧ t = e) := by
  cases he : s.status.err
  · rw [State.command_of_clear he] at h; cases h; exact .inr ⟨rfl, rfl⟩
  · rw [State.command_of_err he] at h; cases h; exact .inl ⟨rfl, rfl⟩

@[simp] theorem State.require_true (s : State) (c : ErrCode) (i : Instr) (k : State) : s.require true c i k = k := rfl

@[simp] theorem State.require_false (s : State) (c : ErrCode) (i : Instr) (k : State) :
    s.require false c i k = s.raise c (encode i) := rfl

/-- What a check can do: pass and go on, or raise its fault with the command word. -/
theorem State.require_cases (s : State) (ok : Bool) (c : ErrCode) (i : Instr) (k : State) :
    (ok = true ∧ s.require ok c i k = k) ∨ (ok = false ∧ s.require ok c i k = s.raise c (encode i)) := by
  cases ok <;> simp

/-! ## Slots -/

theorem State.slotAt_setSlot {s : State} (h : Sparse.wf Slot.empty s.slots = true) (k j : Nat) (x : Slot) :
    (s.setSlot k x).slotAt j = if j = k then x else s.slotAt j := Sparse.read_write_wf h k j x

theorem State.mem_validSlots {s : State} {e : Nat × Slot} :
    e ∈ s.validSlots ↔ e ∈ s.slots ∧ e.1 < s.nslot ∧ e.2.valid = true := by
  simp [State.validSlots]

/-- The valid slots are exactly the slots `k < NSLOT` with `VALID = 1`. -/
theorem State.mem_validSlots_iff {s : State} (h : Sparse.wf Slot.empty s.slots = true) {e : Nat × Slot} :
    e ∈ s.validSlots ↔ s.slotValid e.1 = true ∧ e.2 = s.slotAt e.1 := by
  rw [State.mem_validSlots]
  simp only [State.slotValid, Bool.and_eq_true, decide_eq_true_eq]
  have hr := (Sparse.wf_iff.1 h).1
  constructor
  · rintro ⟨h1, h2, h3⟩
    have := Sparse.read_of_mem (dflt := Slot.empty) hr (show (e.1, e.2) ∈ s.slots from h1)
    exact ⟨⟨h2, by rw [State.slotAt, this]; exact h3⟩, this.symm⟩
  · rintro ⟨⟨h1, h2⟩, h3⟩
    refine ⟨?_, h1, h3 ▸ h2⟩
    by_contra hn
    have : s.slotAt e.1 = Slot.empty := Sparse.read_of_not_mem fun f hf hk => by
      have := Sparse.read_of_mem (dflt := Slot.empty) hr (show (f.1, f.2) ∈ s.slots from hf)
      rw [hk] at this
      exact hn (by rw [show e = f from Prod.ext hk.symm (h3.trans this)]; exact hf)
    rw [this] at h2
    cases h2

/-! ## Counting a pixel and scoring -/

/-- What `H.ACC` can do: fault as its two checks say, or count the pixel (42_histogram R121). -/
theorem State.accumulate_cases (s : State) :
    (s.status.hInit = false ∧ s.accumulate = s.raise .seq (encode .hAcc)) ∨
    (s.status.hInit = true ∧ s.pixcnt.toNat = 2 ^ 24 - 1 ∧ s.accumulate = s.raise .countOvf (encode .hAcc)) ∨
    (s.status.hInit = true ∧ s.pixcnt.toNat ≠ 2 ^ 24 - 1 ∧ s.accumulate = s.count (pixelCell s.data.pixin s.d)) := by
  cases hI : s.status.hInit
  · exact .inl ⟨rfl, by simp [State.accumulate, hI]⟩
  · by_cases hc : s.pixcnt.toNat = 2 ^ 24 - 1
    · exact .inr (.inl ⟨rfl, hc, by simp [State.accumulate, hI, hc]⟩)
    · exact .inr (.inr ⟨rfl, hc, by
        rw [State.accumulate, hI, State.require_true, decide_eq_true hc, State.require_true]⟩)

@[simp] theorem State.count_data (s : State) (i : Nat) : (s.count i).data = s.data := rfl
@[simp] theorem State.count_status (s : State) (i : Nat) : (s.count i).status = s.status.accumulated := rfl
@[simp] theorem State.count_cfg (s : State) (i : Nat) : (s.count i).cfg = s.cfg := rfl
@[simp] theorem State.count_win (s : State) (i : Nat) : (s.count i).win = s.win := rfl
@[simp] theorem State.count_pixcnt (s : State) (i : Nat) : (s.count i).pixcnt = s.pixcnt + 1#24 := rfl
@[simp] theorem State.count_smooth (s : State) (i : Nat) : (s.count i).smooth = s.smooth := rfl
@[simp] theorem State.count_tcl (s : State) (i : Nat) : (s.count i).tcl = s.tcl := rfl
@[simp] theorem State.count_slots (s : State) (i : Nat) : (s.count i).slots = s.slots := rfl
@[simp] theorem State.count_nslotPred (s : State) (i : Nat) : (s.count i).nslotPred = s.nslotPred := rfl
@[simp] theorem State.count_pending (s : State) (i : Nat) : (s.count i).pending = s.pending := rfl
@[simp] theorem State.count_rdata (s : State) (i : Nat) : (s.count i).rdata = s.rdata := rfl

/-- Counting a pixel adds one to its cell and leaves every other cell. -/
theorem State.read_count_h {s : State} (h : Sparse.wf 0#24 s.h = true) (i j : Nat) :
    Sparse.read 0#24 (s.count i).h j = if j = i then Sparse.read 0#24 s.h i + 1#24 else Sparse.read 0#24 s.h j :=
  Sparse.read_write_wf h i j _

@[simp] theorem State.setScore_status (s : State) (r : Int × Bool) : (s.setScore r).status = s.status.scored r.2 := rfl
@[simp] theorem State.setScore_data (s : State) (r : Int × Bool) :
    (s.setScore r).data = { s.data with score := scoreWord r.1 } := rfl

end Sys2Proof.Machine
end

