-- ==== Sys2Proof/Laws/Access.lean ====
section
/-! SUPPORT. Inversion of a step: what a host access can do, said once (00_scope R5, 60_exceptions R193). -/

namespace Sys2Proof.Machine

theorem Reg.atOffset_offset (r : Reg) : Reg.atOffset r.offset = some r := by cases r <;> decide

theorem Reg.offset_of_atOffset {off : Nat} {r : Reg} (h : Reg.atOffset off = some r) : off = r.offset := by
  have := List.find?_some h
  exact (beq_iff_eq.1 this).symm

theorem Reg.atOffset_eq_some {off : Nat} {r : Reg} : Reg.atOffset off = some r ↔ off = r.offset :=
  ⟨Reg.offset_of_atOffset, fun h => h ▸ Reg.atOffset_offset r⟩

/-- An access is refused exactly when it is not well formed (20_memory R43). -/
theorem Access.refusal_eq_none {a : Access} : a.refusal = none ↔ a.wellFormed = true := by
  unfold Access.refusal Access.wellFormed
  by_cases h1 : a.width = .word <;> by_cases h2 : 256 ≤ a.off <;> by_cases h3 : a.off % 4 = 0 <;>
    (simp [h1, h2, h3]; try omega)

/-- Every command answers a next state: the CME's faults are latched, they do not stop the machine. -/
theorem exec_next (i : Instr) (s : State) : ∃ t, exec i s = .next t := by cases i <;> exact ⟨_, rfl⟩

/-- Every `CMD` write answers a next state. -/
theorem writeCmd_next (s : State) (w : Word) : ∃ t, s.writeCmd w = .next t := by
  unfold State.writeCmd
  split
  · exact exec_next _ _
  · exact ⟨_, rfl⟩

/-- Every access of the interface answers a next state. -/
theorem access_next {s : State} {a : Access} (h : a.wellFormed = true) : ∃ t, s.access a = .next t := by
  rw [State.access, Access.refusal_eq_none.2 h]
  cases a with
  | rd w off => exact ⟨_, rfl⟩
  | wr w off v =>
    simp only [State.perform]
    split
    · exact writeCmd_next _ _
    · exact ⟨_, rfl⟩
    · exact ⟨_, rfl⟩

/-- What an access can do, if it answers a next state: a read, a command, an illegal command word, a register write, a
write of an unmapped offset; the last three behind the `ERR` gate. -/
theorem access_cases {s t : State} {a : Access} (h : s.access a = .next t) :
    (∃ w off, a = .rd w off ∧ t = s.setRdata (s.readAt off)) ∨
    (∃ w v i, a = .wr w 0x04 v ∧ decode v = .ok i ∧ exec i s = .next t) ∨
    (∃ w v e, a = .wr w 0x04 v ∧ decode v = .error e ∧ t = s.gate (s.raise .illegalCmd v)) ∨
    (∃ w r v, a = .wr w r.offset v ∧ r ≠ .cmd ∧ t = s.gate (s.writeReg r v)) ∨
    (∃ w off v, a = .wr w off v ∧ Reg.atOffset off = none ∧ t = s.gate (s.writeUnmapped off)) := by
  unfold State.access at h
  split at h
  · cases h
  · cases a with
    | rd w off => cases h; exact .inl ⟨w, off, rfl, rfl⟩
    | wr w off v =>
      simp only [State.perform] at h
      split at h
      · have ho := Reg.offset_of_atOffset ‹_›
        subst ho
        unfold State.writeCmd at h
        split at h
        · exact .inr (.inl ⟨w, v, _, rfl, ‹_›, h⟩)
        · cases h; exact .inr (.inr (.inl ⟨w, v, _, rfl, ‹_›, rfl⟩))
      · have ho := Reg.offset_of_atOffset ‹_›
        subst ho
        cases h
        refine .inr (.inr (.inr (.inl ⟨w, _, v, rfl, ?_, rfl⟩)))
        rintro rfl
        simp_all
      · cases h; exact .inr (.inr (.inr (.inr ⟨w, off, v, rfl, ‹_›, rfl⟩)))

/-- What a step can do: nothing while no access is pending, else the oldest access. -/
theorem step_cases {s t : State} (h : step s = .next t) :
    (s.pending = [] ∧ t = s) ∨ (∃ a rest, s.pending = a :: rest ∧ (s.setPending rest).access a = .next t) := by
  unfold step at h
  split at h
  · cases h; exact .inl ⟨‹_›, rfl⟩
  · exact .inr ⟨_, _, ‹_›, h⟩

/-- What a register write can do while no fault is latched: fault on a read-only register, fault on an illegal value, or
install the value. -/
theorem writeReg_cases (s : State) (r : Reg) (v : Word) :
    (r.mode = .ro ∧ s.writeReg r v = s.raiseAt .access r.offset) ∨
    (r.mode ≠ .ro ∧ r.legal v = false ∧ s.writeReg r v = s.raiseAt .badCfg r.offset) ∨
    (r.mode ≠ .ro ∧ r.legal v = true ∧ s.writeReg r v = s.install r v) := by
  unfold State.writeReg
  by_cases h1 : r.mode = .ro
  · exact .inl ⟨h1, if_pos h1⟩
  · cases h2 : r.legal v
    · exact .inr (.inl ⟨h1, rfl, by simp [h1]⟩)
    · exact .inr (.inr ⟨h1, rfl, by simp [h1]⟩)

/-- What a `DEPTH` write of a legal value can do (10_state R19). -/
theorem writeDepth_cases (s : State) (v : Word) :
    (v = s.cfg.depth.setWidth 32 ∧ s.writeDepth v = s) ∨
    (v ≠ s.cfg.depth.setWidth 32 ∧ s.locked = true ∧ s.writeDepth v = s.raiseAt .cfgLocked 0x40) ∨
    (v ≠ s.cfg.depth.setWidth 32 ∧ s.locked = false ∧
      s.writeDepth v = (s.setCfg { s.cfg with depth := v.setWidth 6 }).setStatus s.status.uncleared) := by
  unfold State.writeDepth
  by_cases h1 : v = s.cfg.depth.setWidth 32
  · exact .inl ⟨h1, if_pos h1⟩
  · cases h2 : s.locked
    · exact .inr (.inr ⟨h1, rfl, by simp [h1]⟩)
    · exact .inr (.inl ⟨h1, rfl, by simp [h1, Reg.offset]⟩)

/-! ## Accesses by name -/

/-- Every register lies at a multiple of 4 below 0xAC (20_memory R41). -/
theorem Reg.offset_bounds (r : Reg) : r.offset % 4 = 0 ∧ r.offset < 0xAC := by cases r <;> decide

/-- The offsets from 0xAC on hold no register (20_memory R41). -/
theorem Reg.atOffset_unmapped {off : Nat} (h : 0xAC ≤ off) : Reg.atOffset off = none := by
  cases ho : Reg.atOffset off with
  | none => rfl
  | some r => have := Reg.offset_bounds r; have := Reg.offset_of_atOffset ho; omega

/-- An access of the interface is performed (20_memory R43). -/
theorem access_of_wellFormed {s : State} {a : Access} (h : a.wellFormed = true) : s.access a = s.perform a := by
  rw [State.access, Access.refusal_eq_none.2 h]

theorem Access.wellFormed_wr {off : Nat} {v : Word} (h4 : off % 4 = 0) (h : off < 256) :
    (Access.wr .word off v).wellFormed = true := by
  simp [Access.wellFormed, Access.width, Access.off, h4, h]

theorem Access.wellFormed_rd {off : Nat} (h4 : off % 4 = 0) (h : off < 256) :
    (Access.rd .word off).wellFormed = true := by
  simp [Access.wellFormed, Access.width, Access.off, h4, h]

/-- A write of a register other than `CMD` goes through the `ERR` gate (60_exceptions R194). -/
theorem access_wr_reg (s : State) {r : Reg} (hr : r ≠ .cmd) (v : Word) :
    s.access (.wr .word r.offset v) = .next (s.gate (s.writeReg r v)) := by
  have hb := Reg.offset_bounds r
  rw [access_of_wellFormed (Access.wellFormed_wr hb.1 (by omega))]
  simp only [State.perform, Reg.atOffset_offset, State.command]

/-- A write of `CMD` runs the word (30_encoding R60). -/
theorem access_wr_cmd (s : State) (w : Word) : s.access (.wr .word 0x04 w) = s.writeCmd w := by
  rw [access_of_wellFormed (Access.wellFormed_wr (by decide) (by decide))]
  simp only [State.perform, show Reg.atOffset 0x04 = some .cmd from Reg.atOffset_offset .cmd]

/-! ## The words of the commands with a slot -/

theorem encode_aCommit (slot : BitVec 16) : encode (.aCommit slot) = 0x40000000#32 ||| slot.setWidth 32 := by
  apply BitVec.eq_of_getLsbD_eq
  intro i hi
  simp only [encode, Instr.opcode, Instr.arg, BitVec.getLsbD_append, BitVec.getLsbD_or, BitVec.getLsbD_setWidth]
  by_cases h : i < 16
  · have h0 : (0x40000000#32).getLsbD i = false := by interval_cases i <;> rfl
    rw [h0, if_pos (by omega), if_pos h]; simp [hi]
  · rw [BitVec.getLsbD_of_ge slot i (by omega)]; interval_cases i <;> first | omega | rfl

theorem encode_sCorr (slot : BitVec 16) : encode (.sCorr slot) = 0x50000000#32 ||| slot.setWidth 32 := by
  apply BitVec.eq_of_getLsbD_eq
  intro i hi
  simp only [encode, Instr.opcode, Instr.arg, BitVec.getLsbD_append, BitVec.getLsbD_or, BitVec.getLsbD_setWidth]
  by_cases h : i < 16
  · have h0 : (0x50000000#32).getLsbD i = false := by interval_cases i <;> rfl
    rw [h0, if_pos (by omega), if_pos h]; simp [hi]
  · rw [BitVec.getLsbD_of_ge slot i (by omega)]; interval_cases i <;> first | omega | rfl

theorem encode_sPeak (slot : BitVec 16) : encode (.sPeak slot) = 0x51000000#32 ||| slot.setWidth 32 := by
  apply BitVec.eq_of_getLsbD_eq
  intro i hi
  simp only [encode, Instr.opcode, Instr.arg, BitVec.getLsbD_append, BitVec.getLsbD_or, BitVec.getLsbD_setWidth]
  by_cases h : i < 16
  · have h0 : (0x51000000#32).getLsbD i = false := by interval_cases i <;> rfl
    rw [h0, if_pos (by omega), if_pos h]; simp [hi]
  · rw [BitVec.getLsbD_of_ge slot i (by omega)]; interval_cases i <;> first | omega | rfl

/-! ## The meanings as gated effects -/

theorem exec_nop (s : State) : exec .nop s = .next s := rfl
theorem exec_sreset (s : State) : exec .sreset s = .next s.toReset := rfl
theorem exec_hAcc (s : State) : exec .hAcc s = .next (s.gate s.accumulate) := rfl
theorem exec_aSeal (s : State) : exec .aSeal s = .next (s.gate (s.setStatus s.status.seal)) := rfl
theorem exec_hClear (s : State) : exec .hClear s =
    .next (s.gate (((s.setH (Sparse.replaceBelow s.ncell [] s.h)).setPixcnt 0#24).setStatus s.status.cleared)) := rfl
theorem exec_cvtRgb2hcl (s : State) : exec .cvtRgb2hcl s =
    .next (s.gate (s.setData (s.data.withHcl (pixelHcl s.data.pixin)))) := rfl

theorem exec_cvtHcl2rgb (s : State) : exec .cvtHcl2rgb s =
    .next (s.gate (s.require s.data.hclLegal .badOperand .cvtHcl2rgb
      (s.setData { s.data with pixout := pixelWord s.data.rgb.1 s.data.rgb.2.1 s.data.rgb.2.2 255 }))) := rfl
theorem exec_quant (s : State) : exec .quant s =
    .next (s.gate (s.require s.data.hclLegal .badOperand .quant
      (s.setData { s.data with red := reducedWord (quant s.data.hcl s.d) }))) := rfl
theorem exec_hSmooth (s : State) : exec .hSmooth s =
    .next (s.gate (s.require s.status.hInit .seq .hSmooth
      (s.require (decide (s.cfg.tapSum = Config.tapOne)) .kernel .hSmooth
        ((s.setSmooth (Sparse.replaceBelow s.ncell (smoothed s.cfg s.d s.h) s.smooth)).setStatus
          s.status.smoothed)))) := rfl
theorem exec_pExtract (s : State) : exec .pExtract s =
    .next (s.gate (s.require s.status.sValid .seq .pExtract
      ((s.setTcl (peaks s.smooth s.d s.cfg.maxpeaks.toNat)).setStatus s.status.extracted))) := rfl
theorem exec_aCommit (slot : BitVec 16) (s : State) : exec (.aCommit slot) s =
    .next (s.gate (s.require (!s.status.sealed) .sealed (.aCommit slot)
      (s.require (decide (slot.toNat < s.nslot)) .slot (.aCommit slot)
        (s.require s.status.sValid .seq (.aCommit slot)
          (s.setSlot slot.toNat (s.committed (s.slotAt slot.toNat))))))) := rfl
theorem exec_sCorr (slot : BitVec 16) (s : State) : exec (.sCorr slot) s =
    .next (s.gate (s.require s.status.sealed .notSealed (.sCorr slot)
      (s.require (s.slotValid slot.toNat) .slot (.sCorr slot)
        (s.require s.status.sValid .seq (.sCorr slot) (s.setScore (s.corrScore (s.slotAt slot.toNat))))))) := rfl
theorem exec_sPeak (slot : BitVec 16) (s : State) : exec (.sPeak slot) s =
    .next (s.gate (s.require s.status.sealed .notSealed (.sPeak slot)
      (s.require (s.slotValid slot.toNat) .slot (.sPeak slot)
        (s.require s.status.sValid .seq (.sPeak slot)
          (s.require (s.status.pkValid && (s.slotAt slot.toNat).pkvalid) .seq (.sPeak slot)
            (s.setScore (s.peakScore (s.slotAt slot.toNat)))))))) := rfl
theorem exec_matchBest (s : State) : exec .matchBest s =
    .next (s.gate (s.require s.status.sealed .notSealed .matchBest
      (s.require s.status.sValid .seq .matchBest
        (s.require s.peaksReady .seq .matchBest
          (s.require s.someAsset .emptySet .matchBest
            (match winner s.candidates with
              | some w => s.setBest w
              | none => s.raise .emptySet (encode .matchBest))))))) := rfl

/-- A command other than `SRESET` changes nothing while a fault is latched (60_exceptions R194). -/
theorem exec_of_err {s : State} (h : s.status.err = true) {i : Instr} (hi : i ≠ .sreset) : exec i s = .next s := by
  cases i <;> first | exact absurd rfl hi | exact State.command_of_err h _ | rfl

end Sys2Proof.Machine
end

