-- ==== Sys2Proof/Laws/Numerics.lean ====
section
/-! SUPPORT. What the arithmetic primitives of 00_scope R6 to R9 compute, said once. -/

namespace Sys2Proof.Machine

/-- `fdiv(n, d)` is the unique `q` with `q·d ≤ n < (q+1)·d` (00_scope R6). -/
theorem fdiv_spec {d : Int} (hd : 0 < d) (n q : Int) : fdiv n d = q ↔ q * d ≤ n ∧ n < (q + 1) * d := by
  unfold fdiv
  have h1 := Int.mul_ediv_self_le (x := n) (k := d) (by omega)
  have h2 := Int.lt_mul_ediv_self_add (x := n) (k := d) hd
  constructor
  · rintro rfl
    constructor <;> nlinarith
  · rintro ⟨h3, h4⟩
    have h5 : n / d < q + 1 := Int.ediv_lt_of_lt_mul hd h4
    have h6 : q ≤ n / d := Int.le_ediv_of_mul_le hd h3
    omega

theorem fmod_eq_emod (n d : Int) : fmod n d = n % d := by
  unfold fmod fdiv; rw [Int.emod_def]

/-- `n mod d` lies in `[0, d)` (00_scope R6). -/
theorem fmod_bounds {d : Int} (hd : 0 < d) (n : Int) : 0 ≤ fmod n d ∧ fmod n d < d := by
  rw [fmod_eq_emod]
  exact ⟨Int.emod_nonneg _ (by omega), Int.emod_lt_of_pos _ hd⟩

theorem fdiv_mono {d : Int} (hd : 0 < d) {m n : Int} (h : m ≤ n) : fdiv m d ≤ fdiv n d := Int.ediv_le_ediv hd h

@[simp] theorem fdiv_zero (d : Int) : fdiv 0 d = 0 := Int.zero_ediv d

@[simp] theorem asr_zero (k : Nat) : asr 0 k = 0 := Int.zero_ediv _

/-- `clamp` lies between its bounds (00_scope R8). -/
theorem clamp_bounds {lo hi : Int} (h : lo ≤ hi) (v : Int) : lo ≤ clamp v lo hi ∧ clamp v lo hi ≤ hi := by
  unfold clamp; split <;> [omega; (split <;> omega)]

theorem clamp_of_mem {lo hi v : Int} (h1 : lo ≤ v) (h2 : v ≤ hi) : clamp v lo hi = v := by
  unfold clamp; rw [if_neg (by omega), if_neg (by omega)]

/-- The search of `iroot` keeps `r^p ≤ n` and ends with the last such `r`, when the root lies within its reach. -/
theorem irootFrom_spec {p n : Nat} : ∀ (k r : Nat), r ^ p ≤ n → n < (r + 2 ^ k) ^ p →
    (irootFrom p n k r) ^ p ≤ n ∧ n < (irootFrom p n k r + 1) ^ p
  | 0, r, h1, h2 => ⟨h1, by simpa [irootFrom] using h2⟩
  | k + 1, r, h1, h2 => by
    rw [irootFrom]
    split
    · refine irootFrom_spec k _ ‹_› ?_
      rwa [Nat.add_assoc, ← Nat.two_mul, ← Nat.pow_succ']
    · exact irootFrom_spec k _ h1 (by omega)

/-- `iroot p n` is the largest `r` with `r^p ≤ n`. -/
theorem iroot_spec {p : Nat} (hp : 0 < p) (n : Nat) : (iroot p n) ^ p ≤ n ∧ n < (iroot p n + 1) ^ p := by
  refine irootFrom_spec _ _ (by simp [hp.ne']) ?_
  rw [Nat.zero_add, ← Nat.pow_mul]
  refine lt_of_lt_of_le Nat.lt_log2_self (Nat.pow_le_pow_right (by omega) ?_)
  have := Nat.lt_mul_div_succ (Nat.log2 n) hp
  rw [Nat.mul_comm]
  omega

/-- `isqrt(n)` is the largest `r` with `r² ≤ n` (00_scope R8). -/
theorem isqrt_spec (n : Nat) : isqrt n ^ 2 ≤ n ∧ n < (isqrt n + 1) ^ 2 := iroot_spec (by omega) n

/-- `icbrt(n)` is the largest `r` with `r³ ≤ n` (00_scope R8). -/
theorem icbrt_spec (n : Nat) : icbrt n ^ 3 ≤ n ∧ n < (icbrt n + 1) ^ 3 := iroot_spec (by omega) n

/-- A root is known by its two bounds. -/
theorem iroot_unique {p n r : Nat} (hp : 0 < p) (h1 : r ^ p ≤ n) (h2 : n < (r + 1) ^ p) : iroot p n = r := by
  obtain ⟨h3, h4⟩ := iroot_spec hp n
  have := lt_of_pow_lt_pow_left₀ p (Nat.zero_le _) (lt_of_le_of_lt h3 h2)
  have := lt_of_pow_lt_pow_left₀ p (Nat.zero_le _) (lt_of_le_of_lt h1 h4)
  omega

theorem iroot_mono {p m n : Nat} (hp : 0 < p) (h : m ≤ n) : iroot p m ≤ iroot p n := by
  have h1 := (iroot_spec hp m).1
  have h2 := (iroot_spec hp n).2
  have := lt_of_pow_lt_pow_left₀ p (Nat.zero_le _) (lt_of_le_of_lt (le_trans h1 h) h2)
  omega

end Sys2Proof.Machine
end

