-- ==== Sys2Proof/Laws/Peak.lean ====
section
/-! SUPPORT. Laws of the peak extractor: ranking only reorders, and the masses of a cluster list are masses of distinct
cells (44_peak R152). -/

namespace Sys2Proof.Machine

theorem rankInsert_perm (m : Sparse (BitVec 48)) (i : Nat) : ∀ is, (rankInsert m i is).Perm (i :: is)
  | [] => .refl _
  | j :: js => by
    unfold rankInsert
    split
    · exact .refl _
    · exact ((rankInsert_perm m i js).cons j).trans (.swap _ _ _)

/-- Ranking only reorders. -/
theorem rankSort_perm (m : Sparse (BitVec 48)) : ∀ is, (rankSort m is).Perm is
  | [] => .refl _
  | i :: is => (rankInsert_perm m i (rankSort m is)).trans ((rankSort_perm m is).cons i)

/-- The masses of a cluster list are the values of its cells. -/
theorem peaks_map_mass (m : Sparse (BitVec 48)) (d maxPeaks : Nat) :
    (peaks m d maxPeaks).map (fun x => x.mass.toNat) =
      ((rankSort m (peakCells m d)).take maxPeaks).map fun i => (Sparse.read 0#48 m i).toNat := by
  rw [peaks, List.map_map]
  rfl

/-- The masses of a cluster list add up to at most the sum of the array. -/
theorem peaks_mass_le_total (m : Sparse (BitVec 48)) (d maxPeaks : Nat) :
    ((peaks m d maxPeaks).map fun x => x.mass.toNat).sum ≤ Sparse.total (d * d * d) m := by
  rw [peaks_map_mass]
  calc _ ≤ ((rankSort m (peakCells m d)).map fun i => (Sparse.read 0#48 m i).toNat).sum :=
        ((List.take_sublist _ _).map _).sum_le_sum (by simp)
    _ = ((peakCells m d).map fun i => (Sparse.read 0#48 m i).toNat).sum := ((rankSort_perm m _).map _).sum_eq
    _ ≤ _ := ((List.filter_sublist).map _).sum_le_sum (by simp)

end Sys2Proof.Machine
end

