-- ==== Sys2Proof/Laws/PerInstr.lean ====
section
/-! SUPPORT. Per-instruction laws, one lemma per constructor. `EncodeFields`: the word of a command has its opcode in
[31:24], zero in [23:16] and its argument in [15:0], and the command is well formed (30_encoding R60, R61). -/

namespace Sys2Proof

theorem opcField_append (a : BitVec 8) (b : BitVec 16) : opcField (a ++ (0#8 ++ b)) = a := by
  apply BitVec.eq_of_getLsbD_eq
  intro i hi
  simp only [opcField, BitVec.getLsbD_extractLsb', BitVec.getLsbD_append]
  rw [if_neg (by omega)]
  simp [hi]

theorem rsvField_append (a : BitVec 8) (b : BitVec 16) : rsvField (a ++ (0#8 ++ b)) = 0#8 := by
  apply BitVec.eq_of_getLsbD_eq
  intro i hi
  simp only [rsvField, BitVec.getLsbD_extractLsb', BitVec.getLsbD_append]
  rw [if_pos (by omega), if_neg (by omega)]
  simp

theorem argField_append (a : BitVec 8) (b : BitVec 16) : argField (a ++ (0#8 ++ b)) = b := by
  apply BitVec.eq_of_getLsbD_eq
  intro i hi
  simp only [argField, BitVec.getLsbD_extractLsb', BitVec.getLsbD_append]
  rw [if_pos (by omega), if_pos (by omega)]
  simp [hi]

namespace Laws

/-- The fields of a command's word (30_encoding R60, R61). -/
def EncodeFields.Statement (i : Instr) : Prop :=
  opcField (encode i) = i.opcode ∧ rsvField (encode i) = 0#8 ∧ argField (encode i) = i.arg ∧ i.wellFormed = true

theorem encodeFields_of_wellFormed {i : Instr} (h : i.wellFormed = true) : EncodeFields.Statement i :=
  ⟨opcField_append _ _, rsvField_append _ _, argField_append _ _, h⟩

theorem EncodeFields.nop : EncodeFields.Statement .nop := encodeFields_of_wellFormed rfl
theorem EncodeFields.sreset : EncodeFields.Statement .sreset := encodeFields_of_wellFormed rfl
theorem EncodeFields.cvtRgb2hcl : EncodeFields.Statement .cvtRgb2hcl := encodeFields_of_wellFormed rfl
theorem EncodeFields.cvtHcl2rgb : EncodeFields.Statement .cvtHcl2rgb := encodeFields_of_wellFormed rfl
theorem EncodeFields.quant : EncodeFields.Statement .quant := encodeFields_of_wellFormed rfl
theorem EncodeFields.hClear : EncodeFields.Statement .hClear := encodeFields_of_wellFormed rfl
theorem EncodeFields.hAcc : EncodeFields.Statement .hAcc := encodeFields_of_wellFormed rfl
theorem EncodeFields.hSmooth : EncodeFields.Statement .hSmooth := encodeFields_of_wellFormed rfl
theorem EncodeFields.pExtract : EncodeFields.Statement .pExtract := encodeFields_of_wellFormed rfl
theorem EncodeFields.aCommit (slot : BitVec 16) : EncodeFields.Statement (.aCommit slot) :=
  encodeFields_of_wellFormed (decide_eq_true slot.isLt)
theorem EncodeFields.aSeal : EncodeFields.Statement .aSeal := encodeFields_of_wellFormed rfl
theorem EncodeFields.sCorr (slot : BitVec 16) : EncodeFields.Statement (.sCorr slot) :=
  encodeFields_of_wellFormed (decide_eq_true slot.isLt)
theorem EncodeFields.sPeak (slot : BitVec 16) : EncodeFields.Statement (.sPeak slot) :=
  encodeFields_of_wellFormed (decide_eq_true slot.isLt)
theorem EncodeFields.matchBest : EncodeFields.Statement .matchBest := encodeFields_of_wellFormed rfl

end Laws

end Sys2Proof
end

