-- ==== Sys2Proof/Tests/Slice0.lean ====
section
/-! SUPPORT. Named tests of the model: well-formedness, decoding of words written out from 30_encoding R62, one small step
per command with the vectors of 95_test_vectors, and for every obligation with hypotheses a witness that meets them. -/

namespace Sys2Proof.Tests

open Sys2Proof Sys2Proof.Machine

/-! ## Small states -/

/-- The state a result leads to; a state of one slot where there is none. -/
def after : Result → State
  | .next t => t
  | .fault _ => State.resetWith 0
  | .refused _ => State.resetWith 0

/-- A fresh CME with `NSLOT = 64`, as in 95_test_vectors. -/
def fresh : State := State.resetWith 63

/-- Flags: `ERR`, `SEALED`, `H_INIT`, `S_VALID`, `PK_VALID`. -/
def flags (err sealed hInit sValid pkValid : Bool) : Status :=
  { Status.reset with err := err, sealed := sealed, hInit := hInit, sValid := sValid, pkValid := pkValid,
                      errCode := if err then 4#32 else 0#32 }

/-- A fresh CME with given flags. -/
def flagged (f : Status) : State := fresh.setStatus f

/-- A fresh CME with given HCL registers at a given depth. -/
def coloured (h c l : BitVec 16) (d : BitVec 6) : State :=
  (fresh.setData { DataRegs.reset with hclH := h, hclC := c, hclL := l }).setCfg { CfgRegs.reset with depth := d }

/-- The red asset of 95 program P2b: four pixels in cell 3 at depth 2, kernel radius 0. -/
def redSlot : Slot :=
  { valid := true, ident := 7#32, pixcnt := 4#24, cells := [(3, 0x4000000#48)], pkvalid := true,
    cl := [⟨0#5, 1#5, 1#5, 0x4000000#48⟩] }

/-- The blue asset of 95 program P2b: four pixels in cell 6. -/
def blueSlot : Slot :=
  { valid := true, ident := 3#32, pixcnt := 4#24, cells := [(6, 0x4000000#48)], pkvalid := true,
    cl := [⟨1#5, 1#5, 0#5, 0x4000000#48⟩] }

/-- The red tile of 95 program P2b, with the red asset in slot 1 and the blue one in slot 4. -/
def loaded (f : Status) (alg : BitVec 1) : State :=
  (((((((fresh.setCfg { CfgRegs.reset with depth := 2#6, sradius := 0#3, ktap0 := 256#9, matchalg := alg }).setStatus
    f).setPixcnt 4#24).setH [(3, 4#24)]).setSmooth [(3, 0x4000000#48)]).setTcl [⟨0#5, 1#5, 1#5, 0x4000000#48⟩]).setSlots
    [(1, redSlot), (4, blueSlot)])

/-- `loaded` in the match phase with every valid flag set. -/
def matching (alg : BitVec 1) : State := loaded (flags false true true true true) alg

/-- `loaded` in the load phase. -/
def loading : State := loaded (flags false false true true true) 0#1

/-! ## Well-formedness -/

theorem test_wf_access : (Access.rd .word 252).wellFormed = true := by decide
theorem test_wf_narrow_access_refused :
    (Access.wr .half 0x40 0#32).wellFormed = false ∧ (Access.wr .half 0x40 0#32).refusal = some .narrowAccess := by decide
theorem test_wf_misaligned_access_refused :
    (Access.rd .word 2).wellFormed = false ∧ (Access.rd .word 2).refusal = some .misalignedAccess := by decide
theorem test_wf_outside_access_refused :
    (Access.rd .word 256).wellFormed = false ∧ (Access.rd .word 256).refusal = some .outsideWindow := by decide
theorem test_wf_slot_at_its_bound : (Instr.aCommit 65535#16).wellFormed = true := by decide

/-! ## Decoding: the words of 30_encoding R62 -/

theorem test_decode_nop : decode 0b00000000000000000000000000000000#32 = .ok .nop := rfl
theorem test_decode_sreset : decode 0b00000001000000000000000000000000#32 = .ok .sreset := rfl
theorem test_decode_cvtRgb2hcl : decode 0b00010000000000000000000000000000#32 = .ok .cvtRgb2hcl := rfl
theorem test_decode_cvtHcl2rgb : decode 0b00010001000000000000000000000000#32 = .ok .cvtHcl2rgb := rfl
theorem test_decode_quant : decode 0b00010010000000000000000000000000#32 = .ok .quant := rfl
theorem test_decode_hClear : decode 0b00100000000000000000000000000000#32 = .ok .hClear := rfl
theorem test_decode_hAcc : decode 0b00100001000000000000000000000000#32 = .ok .hAcc := rfl
theorem test_decode_hSmooth : decode 0b00100010000000000000000000000000#32 = .ok .hSmooth := rfl
theorem test_decode_pExtract : decode 0b00110000000000000000000000000000#32 = .ok .pExtract := rfl
theorem test_decode_aCommit : decode 0b01000000000000000000000001000110#32 = .ok (.aCommit 70#16) := rfl
theorem test_decode_aSeal : decode 0b01000001000000000000000000000000#32 = .ok .aSeal := rfl
theorem test_decode_sCorr : decode 0b01010000000000001111111111111111#32 = .ok (.sCorr 65535#16) := rfl
theorem test_decode_sPeak : decode 0b01010001000000000000000000000010#32 = .ok (.sPeak 2#16) := rfl
theorem test_decode_matchBest : decode 0b01010010000000000000000000000000#32 = .ok .matchBest := rfl

/-- 30_encoding R63: an unknown opcode, and a reserved bit in each format. -/
theorem test_decode_illegal :
    decode 0x02000000#32 = .error .unknownOpcode ∧ decode 0x01000001#32 = .error .reservedBits ∧
    decode 0x40010000#32 = .error .reservedBits := ⟨rfl, rfl, rfl⟩

theorem test_decodeTableWord : decodeTableWord 32 0x51000002 = some (.sPeak 2#16) := rfl

/-- The word placed by `withFetchWord` is the one the very next step runs. -/
theorem test_fetch_runs_the_word :
    (after (step (State.reset.withFetchWord 32 0x41000000))).status.sealed = true ∧
    (after (step (State.reset.withFetchWord 32 0x41000000))).pending = [] := ⟨rfl, rfl⟩

/-! ## One step per command (expected values from 95_test_vectors) -/

/-- 46_system R186: from a faulted match phase back to reset. -/
theorem test_sreset : after (exec .sreset (loaded (flags true true true true true) 1#1)) = fresh := by decide +kernel

/-- 95 section 2.1: red. -/
theorem test_cvtRgb2hcl :
    let t := after (exec .cvtRgb2hcl (fresh.setData { DataRegs.reset with pixin := 0xFF0000FF#32 }))
    t.data.hclH = 5119#16 ∧ t.data.hclC = 13382#16 ∧ t.data.hclL = 6815#16 := by decide +kernel

/-- 95 section 2.1: the darkest blue has a hue, and alpha is ignored. -/
theorem test_cvtRgb2hcl_dark :
    let t := after (exec .cvtRgb2hcl (fresh.setData { DataRegs.reset with pixin := 0x00010000#32 }))
    t.data.hclH = 37223#16 ∧ t.data.hclC = 52#16 ∧ t.data.hclL = 2#16 := by decide +kernel

/-- 95 section 2.1: an out-of-gamut colour is clamped. -/
theorem test_cvtHcl2rgb :
    (after (exec .cvtHcl2rgb (coloured 15360 25600 6400 16))).data.pixout = 0xFF009400#32 := by decide +kernel

/-- 95 section 2.1: the left half-plane of the rotation. -/
theorem test_cvtHcl2rgb_blue :
    (after (exec .cvtHcl2rgb (coloured 39205 17128 4134 16))).data.pixout = 0xFFFF0000#32 := by decide +kernel

/-- 95 section 2.2: red at depth 32. -/
theorem test_quant : (after (exec .quant (coloured 5119 13382 6815 32))).data.red = 0x00031811#32 := by decide +kernel

/-- 95 section 2.2: the largest legal colour at depth 2. -/
theorem test_quant_top : (after (exec .quant (coloured 46079 32767 12800 2))).data.red = 0x00010101#32 := by decide +kernel

/-- 42_histogram R120: the status word after `H.CLEAR`. -/
theorem test_hClear :
    (after (exec .hClear fresh)).readAt 0x08 = 0x00000004#32 ∧ (after (exec .hClear loading)).h = [] := by decide +kernel

/-- 95 section 2.3: a red pixel at depth 16 falls in cell 456. -/
theorem test_hAcc :
    let t := after (exec .hAcc ((flagged (flags false false true false false)).setData
      { DataRegs.reset with pixin := 0xFF0000FF#32 }))
    t.h = [(456, 1#24)] ∧ t.pixcnt = 1#24 := by decide +kernel

/-- 95 section 2.3: at the full count `PIXPUSH` faults and `PIXIN` is written. -/
theorem test_pixPush_overflow :
    let t := after (((flagged (flags false false true false false)).setPixcnt 0xFFFFFF#24).access
      (.wr .word 0x14 0x12345678#32))
    t.status.errCode = 5#32 ∧ t.status.errInfo = 0x21000000#32 ∧ t.data.pixin = 0x12345678#32 ∧ t.h = [] := by
  decide +kernel

/-- 95 section 2.3: one pixel in cell 3 at depth 2 with the reset kernel. -/
theorem test_hSmooth :
    Sparse.cells 8 (after (exec .hSmooth (((flagged (flags false false true false false)).setCfg
      { CfgRegs.reset with depth := 2#6 }).setH [(3, 1#24)]))).smooth =
      [524288, 1572864, 1572864, 4718592, 524288, 1572864, 1572864, 4718592] := by decide +kernel

/-- 95 section 2.3: taps of sum 228 are refused. -/
theorem test_hSmooth_kernel :
    (after (exec .hSmooth ((flagged (flags false false true false false)).setCfg
      { CfgRegs.reset with ktap0 := 100#9 }))).status.errCode = 6#32 := by decide +kernel

/-- 95 section 2.5: four red pixels at depth 2 with the identity kernel. -/
theorem test_pExtract :
    (after (exec .pExtract (loading.setTcl []))).tcl = [⟨0#5, 1#5, 1#5, 0x4000000#48⟩] := by decide +kernel

/-- 95 section 2.5: the hue fully blurred, no strict maximum. -/
theorem test_pExtract_flat :
    (after (exec .pExtract (loading.setSmooth [(3, 0x1200000#48), (7, 0x1200000#48)]))).tcl = [] := by decide +kernel

/-- 45_assets_match R170: the slot information after a commit to slot 3. -/
theorem test_aCommit :
    let t := after (exec (.aCommit 3#16) ((loading.setWin { WinRegs.reset with hsel := 0x00030002#32 }).setCfg
      { loading.cfg with assetId := 0x1F600#32 }))
    t.readAt 0xA0 = 0x00000103#32 ∧ t.readAt 0xA4 = 0x0001F600#32 ∧ t.readAt 0xA8 = 4#32 := by decide +kernel

/-- 45_assets_match R171. -/
theorem test_aSeal : (after (exec .aSeal fresh)).readAt 0x08 = 0x00000002#32 := by decide +kernel

/-- 95 program P2b: red against blue, -1/7 rounded down. -/
theorem test_sCorr : (after (exec (.sCorr 4#16) (matching 0#1))).data.score = 0xF6DB6DB6#32 := by decide +kernel

/-- 95 program P2b: red against itself. -/
theorem test_sCorr_self : (after (exec (.sCorr 1#16) (matching 0#1))).data.score = 0x40000000#32 := by decide +kernel

/-- 95 program P2b: red against blue under the peak matcher. -/
theorem test_sPeak : (after (exec (.sPeak 4#16) (matching 1#1))).data.score = 0x10000000#32 := by decide +kernel

/-- 95 section 2.5: the greedy row, where an optimal assignment would score higher. -/
theorem test_sPeak_greedy :
    pscore CfgRegs.reset 16 [⟨5, 5, 5, 0x4000000⟩, ⟨6, 5, 5, 0x3000000⟩] 0x10000000
      [⟨6, 5, 5, 0x4000000⟩, ⟨7, 5, 5, 0x4000000⟩] 0x10000000 = (0x03400000, false) := by decide +kernel

/-- 95 program P2b: the red tile finds the red asset. -/
theorem test_matchBest :
    let t := after (exec .matchBest (matching 1#1))
    t.data.bestSlot = 1#16 ∧ t.data.bestId = 7#32 ∧ t.data.bestScore = 0x40000000#32 ∧ t.status.bestValid = true := by
  decide +kernel

/-- 95 section 1.4: an empty tile is degenerate, and the lowest id wins, not the lowest slot. -/
theorem test_matchBest_tie :
    let t := after (exec .matchBest (((matching 0#1).setSmooth []).setSlots
      [(0, redSlot), (1, { redSlot with ident := 5#32 }), (2, { blueSlot with ident := 9#32 })]))
    t.data.bestSlot = 1#16 ∧ t.data.bestId = 5#32 ∧ t.data.bestScore = 0#32 ∧ t.status.degen = true := by decide +kernel

/-- 60_exceptions R194: a faulted machine drops writes. -/
theorem test_faulted_drops :
    (flagged (flags true false false false false)).access (.wr .word 0x70 5#32) =
      .next (flagged (flags true false false false false)) := rfl

/-! ## Witnesses: for every obligation with hypotheses, states and operands that meet them all -/

/-- Three commands, two at the ends of the slot range. -/
theorem witness_DecodeOfEncodeIsTheCommand :
    (Instr.aCommit 0#16).wellFormed = true ∧ (Instr.sPeak 65535#16).wellFormed = true ∧ Instr.nop.wellFormed = true := by
  decide

/-- A word of the map, an illegal word with its fault-free state. -/
theorem witness_EveryWordIsOneRowOrRaisesIllegal :
    decode 0x5000FFFF#32 = .ok (.sCorr 65535#16) ∧ (∀ r ∈ opcodeMap, 0x01000001#32 &&& r.mask ≠ r.pattern) ∧
    fresh.status.err = false := ⟨rfl, by decide, rfl⟩

theorem witness_StepRunsTheDecodedCommand :
    (fresh.setPending [.wr .word 0x04 0x40000046#32, .rd .word 0x08]).pending =
      .wr .word 0x04 0x40000046#32 :: [.rd .word 0x08] ∧
    decode 0x40000046#32 = .ok (.aCommit 70#16) ∧ (Instr.aCommit 70#16).wellFormed = true := ⟨rfl, rfl, by decide⟩

theorem witness_RunIsLeftFoldOfAccesses :
    fresh.pending = [] ∧
    ∀ a ∈ [Access.wr .word 0x14 0#32, .rd .word 0, .wr .word 0xFC 1#32], a.wellFormed = true := ⟨rfl, by decide⟩

theorem witness_OnlyWindowWordAccessesStep :
    (Width.word = .word ∧ 252 % 4 = 0 ∧ 252 < 256) ∧ ¬ (Width.word = .word ∧ 256 % 4 = 0 ∧ 256 < 256) ∧
    ¬ (Width.word = .word ∧ 254 % 4 = 0 ∧ 254 < 256) ∧ ¬ (Width.half = .word ∧ 252 % 4 = 0 ∧ 252 < 256) := by decide

theorem witness_ResetLeavesTheResetValues :
    exec .sreset (flagged (flags true true true true true)) = .next fresh ∧ fresh = State.resetWith 63 := ⟨rfl, rfl⟩

theorem witness_Rgb2HclWritesTheColour : fresh.status.err = false := rfl

/-- The largest legal colour. -/
theorem witness_Hcl2RgbWritesThePixel :
    let s := coloured 46079 32767 12800 16
    s.status.err = false ∧ s.data.hclH.toNat ≤ 46079 ∧ s.data.hclC.toNat ≤ 32767 ∧ s.data.hclL.toNat ≤ 12800 := by decide

/-- One above each bound. -/
theorem witness_IllegalColourRaisesBadOperand :
    (coloured 46080 0 0 16).status.err = false ∧ 46079 < (coloured 46080 0 0 16).data.hclH.toNat ∧
    32767 < (coloured 0 32768 0 16).data.hclC.toNat ∧ 12800 < (coloured 0 0 12801 16).data.hclL.toNat := by decide

theorem witness_GreysHaveNoChromaAndHueZero : 0 ≤ 255 ∧ 255 ≤ 255 := by decide

/-- Both sides of the switch of 40_color_convert R83, and the ends. -/
theorem witness_FlabBranchesAndMonotone :
    (19019086 ≤ 2 ^ 31 ∧ 216 * 2 ^ 31 < 19019086 * 24389) ∧ (2 ^ 31 ≤ 2 ^ 31 ∧ 216 * 2 ^ 31 < 2 ^ 31 * 24389) ∧
    ¬ 216 * 2 ^ 31 < 19019085 * 24389 ∧ (19019085 ≤ 19019086 ∧ 19019086 ≤ 2 ^ 31) := by decide

theorem witness_EncIsTheNearestEntry : 65536 ≤ 65536 ∧ 255 ≤ 255 ∧ 0 < enc 20 ∧ 10 ≤ 11 := by decide +kernel

/-- The least and the greatest depth, with the largest legal colour. -/
theorem witness_QuantWritesTheBuckets :
    (let s := coloured 46079 32767 12800 2
     s.status.err = false ∧ 2 ≤ s.d ∧ s.d ≤ 32 ∧
     s.data.hclH.toNat ≤ 46079 ∧ s.data.hclC.toNat ≤ 32767 ∧ s.data.hclL.toNat ≤ 12800) ∧
    2 ≤ (coloured 0 0 0 32).d ∧ (coloured 0 0 0 32).d ≤ 32 := by decide

theorem witness_QuantizationIsMonotonic :
    2 ≤ 2 ∧ 32 ≤ 32 ∧ ((2879, 8575, 6399) : Int × Int × Int).1 ≤ ((2880, 8576, 6400) : Int × Int × Int).1 ∧
    ((2879, 8575, 6399) : Int × Int × Int).2.1 ≤ ((2880, 8576, 6400) : Int × Int × Int).2.1 ∧
    ((2879, 8575, 6399) : Int × Int × Int).2.2 ≤ ((2880, 8576, 6400) : Int × Int × Int).2.2 := by decide

theorem witness_HClearEmptiesTheTile : loading.status.err = false := rfl

/-- One pixel below the full count. -/
theorem witness_HAccCountsThePixel :
    let s := (flagged (flags false false true false false)).setPixcnt 0xFFFFFE#24
    s.status.err = false ∧ s.status.hInit = true ∧ s.pixcnt.toNat ≠ 2 ^ 24 - 1 ∧ Sparse.wf 0#24 s.h = true := by decide

/-- A fault-free state, one in which the pixel faults, and a faulted one. -/
theorem witness_PixPushIsPixinThenHAcc :
    fresh.status.err = false ∧ (after (fresh.access (.wr .word 0x14 9#32))).status.err = true ∧
    (flagged (flags true false false false false)).status.err = true := ⟨rfl, rfl, rfl⟩

/-- One state for each check. -/
theorem witness_TileCommandChecks :
    (fresh.status.err = false ∧ fresh.status.hInit = false ∧ fresh.status.sValid = false) ∧
    (let s := (flagged (flags false false true false false)).setPixcnt 0xFFFFFF#24
     s.status.err = false ∧ s.status.hInit = true ∧ s.pixcnt.toNat = 2 ^ 24 - 1) ∧
    (let s := (flagged (flags false false true false false)).setCfg { CfgRegs.reset with ktap0 := 129#9 }
     s.status.err = false ∧ s.status.hInit = true ∧ s.cfg.tapSum ≠ 256) := by decide

theorem witness_SmoothedCellIsTheTripleSum :
    0 < 2 ∧ Sparse.wf 0#24 [(3, 4#24), (7, 1#24)] = true ∧ 1 < 2 := by decide

theorem witness_HSmoothWritesTheSmoothedTile :
    loading.status.err = false ∧ loading.status.hInit = true ∧ loading.cfg.tapSum = 256 := by decide

/-! Facts about the state `loaded`, for the witnesses that need an invariant. -/

theorem loaded_slotAt (f : Status) (alg : BitVec 1) (k : Nat) :
    (loaded f alg).slotAt k = if k = 1 then redSlot else if k = 4 then blueSlot else Slot.empty := rfl

theorem loaded_slots (p : Slot → Prop) (h1 : p redSlot) (h2 : p blueSlot) (h3 : p Slot.empty) (f : Status)
    (alg : BitVec 1) (k : Nat) : p ((loaded f alg).slotAt k) := by
  rw [loaded_slotAt]; split
  · exact h1
  · split
    · exact h2
    · exact h3

theorem loaded_regsOk (f : Status) (alg : BitVec 1) : (loaded f alg).RegsOk where
  depth_ge := (by decide : 2 ≤ 2)
  depth_le := (by decide : 2 ≤ 32)
  radius_le := (by decide : 0 ≤ 4)
  taps_le := fun j => by
    match j with
    | 0 => exact (by decide : 256 ≤ 256)
    | 1 => exact (by decide : 64 ≤ 256)
    | 2 => exact (by decide : 0 ≤ 256)
    | 3 => exact (by decide : 0 ≤ 256)
    | 4 => exact (by decide : 0 ≤ 256)
    | _ + 5 => exact (by decide : 0 ≤ 256)
  peaks_ge := (by decide : 1 ≤ 8)
  peaks_le := (by decide : 8 ≤ 16)
  hsel_ok := (by decide : hselLegal 0#32 = true)
  clsel_ok := (by decide : clselLegal 0#32 = true)

theorem loaded_memOk (f : Status) (alg : BitVec 1) : (loaded f alg).MemOk where
  h_wf := rfl
  s_wf := rfl
  slots_wf := rfl
  slots_lt := by
    intro e he
    change e ∈ [(1, redSlot), (4, blueSlot)] at he
    change e.1 < 64
    simp only [List.mem_cons, List.not_mem_nil, or_false] at he
    obtain rfl | rfl := he <;> decide
  cells_wf := loaded_slots (fun x => Sparse.wf 0#48 x.cells = true) rfl rfl rfl f alg
  tcl_le := (by decide : 1 ≤ 16)
  cl_le := loaded_slots (fun x => x.cl.length ≤ 16) (by decide) (by decide) (by decide) f alg

theorem loaded_countsOk (f : Status) (alg : BitVec 1) : (loaded f alg).CountsOk := fun _ => rfl

theorem loaded_massOk (f : Status) (alg : BitVec 1) : (loaded f alg).MassOk where
  tile := fun _ => (by decide +kernel : Sparse.total 8 [(3, 0x4000000#48)] = 4 * 2 ^ 24)
  slot := fun k hv => by
    have h := loaded_slots (fun x => x.valid = true → Sparse.total 8 x.cells = x.pixcnt.toNat * 2 ^ 24)
      (by decide +kernel) (by decide +kernel) (by decide +kernel) f alg k
    simp only [State.slotValid, Bool.and_eq_true] at hv
    exact h hv.2
  tile_clusters := fun _ => (by decide : 0x4000000 ≤ 4 * 2 ^ 24)
  slot_clusters := fun k _ _ => loaded_slots (fun x => (x.cl.map fun y => y.mass.toNat).sum ≤ x.pixcnt.toNat * 2 ^ 24)
    (by decide) (by decide) (by decide) f alg k

theorem matching_flagsOk (alg : BitVec 1) : (matching alg).FlagsOk where
  pk_s := fun _ => rfl
  s_h := fun _ => rfl
  h_cnt := fun h => by cases h
  slot_pk := loaded_slots (fun x => x.pkvalid = true → x.valid = true) (by decide) (by decide) (by decide) _ alg

theorem loading_flagsOk : loading.FlagsOk where
  pk_s := fun _ => rfl
  s_h := fun _ => rfl
  h_cnt := fun h => by cases h
  slot_pk := loaded_slots (fun x => x.pkvalid = true → x.valid = true) (by decide) (by decide) (by decide) _ 0#1

theorem loading_faultOk : loading.FaultOk where
  clear := fun _ => ⟨rfl, rfl⟩
  latched := fun h => by cases h

theorem loading_resultsOk : loading.ResultsOk := by
  constructor <;> decide

theorem loading_clustersOk : loading.ClustersOk where
  tile := fun _ => (by decide : ∀ x ∈ [(⟨0#5, 1#5, 1#5, 0x4000000#48⟩ : Cluster)],
    x.h.toNat < 2 ∧ x.c.toNat < 2 ∧ x.l.toNat < 2)
  slot := fun k _ _ => loaded_slots (fun y => ∀ x ∈ y.cl, x.h.toNat < 2 ∧ x.c.toNat < 2 ∧ x.l.toNat < 2)
    (by decide) (by decide) (by decide) _ 0#1 k

theorem witness_SmoothingConservesMass :
    loading.status.err = false ∧ loading.status.hInit = true ∧ loading.cfg.tapSum = 256 ∧ loading.RegsOk ∧
    loading.MemOk ∧ loading.CountsOk ∧ exec .hSmooth loading = .next (after (exec .hSmooth loading)) :=
  ⟨rfl, rfl, by decide, loaded_regsOk _ _, loaded_memOk _ _, loaded_countsOk _ _, rfl⟩

theorem witness_SCorrWritesTheScore :
    let s := matching 0#1
    s.status.err = false ∧ s.status.sealed = true ∧ (4#16).toNat < s.nslot ∧ (s.slotAt 4).valid = true ∧
    s.status.sValid = true := ⟨rfl, rfl, by decide, rfl, rfl⟩

theorem witness_CorrelationSymmetricAndSelfOne :
    [4, 0, 0].length = 3 ∧ [1, 1, 7].length = 3 ∧ covar 3 [4, 0, 0] [4, 0, 0] ≠ 0 := by decide

theorem witness_DegenerateExactlyWhenConstant :
    [2, 2].length = 2 ∧ [1, 0].length = 2 ∧ covar 2 [2, 2] [2, 2] = 0 ∧ (∀ a ∈ [2, 2], ∀ b ∈ [2, 2], a = b) ∧
    (corr 2 [2, 2] [1, 0]).2 = true := by decide

theorem witness_PeakIsStrictLocalMaximum : 2 ≤ 2 ∧ 0 < 2 ∧ 1 < 2 ∧ isPeak [(3, 5#48)] 2 0 1 1 = true := by decide

theorem witness_ClusterListHoldsTheTopPeaks :
    2 ≤ 2 ∧ 2 ≤ 32 ∧ 32 ≤ 32 ∧ isPeak [(3, 5#48)] 2 0 1 1 = true ∧ (peaks [(3, 5#48)] 2 16).length = 1 := by decide

theorem witness_PExtractWritesTheClusters : loading.status.err = false ∧ loading.status.sValid = true := ⟨rfl, rfl⟩

/-- Two clusters at the ends of the hue circle at the greatest depth, two distances on both sides of a step of the shift, and
the last one with a positive similarity. -/
theorem witness_SimilarityNeverIncreases :
    (32 ≤ 32 ∧ (0#5).toNat < 32 ∧ (31#5).toNat < 32) ∧ dist2 CfgRegs.reset 32 ⟨0, 5, 5, 1⟩ ⟨31, 5, 5, 1⟩ = 16 ∧
    15 ≤ 16 ∧ 255 ≤ 256 ∧ 0 < simOfDist 256 ∧ simOfDist 257 = 0 := by decide +kernel

/-- The pairs that are left after the first of two tile clusters is matched: not none, and a part of all pairs. -/
theorem witness_GreedyPicksHeaviestLowestPair :
    let all := weightedPairs CfgRegs.reset 16 [⟨5, 5, 5, 4⟩, ⟨6, 5, 5, 3⟩] [⟨6, 5, 5, 4⟩, ⟨7, 5, 5, 4⟩]
    (all.filter fun q => decide (q.i ≠ 1)).Sublist all ∧ (all.filter fun q => decide (q.i ≠ 1)) ≠ [] ∧
    heaviest all = some { i := 1, j := 0, weight := 65536 * 3 * 4 } :=
  ⟨List.filter_sublist, by decide +kernel, by decide +kernel⟩

/-- Lists whose masses equal their totals, and a state that meets the mass invariant with both lists. -/
theorem witness_PeakScoreGuardNeverBinds :
    (let ts : List Cluster := [⟨1, 2, 3, 5⟩]
     (ts.map fun x => x.mass.toNat).sum ≤ 5 ∧ ts.length ≠ 0 ∧ (5 : Nat) ≠ 0) ∧
    (let s := matching 1#1
     s.MassOk ∧ s.status.pkValid = true ∧ s.slotValid 4 = true ∧ (s.slotAt 4).pkvalid = true ∧ s.tcl.length ≠ 0 ∧
     (s.slotAt 4).cl.length ≠ 0 ∧ s.pixcnt ≠ 0#24 ∧ (s.slotAt 4).pixcnt ≠ 0#24) :=
  ⟨by decide, loaded_massOk _ _, rfl, rfl, rfl, by decide, by decide, by decide, by decide⟩

theorem witness_SPeakWritesTheScore :
    let s := matching 1#1
    s.status.err = false ∧ s.status.sealed = true ∧ (1#16).toNat < s.nslot ∧ (s.slotAt 1).valid = true ∧
    s.status.sValid = true ∧ s.status.pkValid = true ∧ (s.slotAt 1).pkvalid = true :=
  ⟨rfl, rfl, by decide, rfl, rfl, rfl, rfl⟩

/-- Load phase; a slot index past the store, an invalid slot; a match phase without `S`; without the tile's clusters. -/
theorem witness_ScorerChecks :
    (loading.status.err = false ∧ loading.status.sealed = false) ∧
    (let s := matching 0#1
     s.status.err = false ∧ s.status.sealed = true ∧ s.nslot ≤ (64#16).toNat ∧ (s.slotAt 63).valid = false) ∧
    (let s := loaded (flags false true true false false) 0#1
     s.status.err = false ∧ s.status.sealed = true ∧ (1#16).toNat < s.nslot ∧ (s.slotAt 1).valid = true ∧
     s.status.sValid = false) ∧
    (let s := loaded (flags false true true true false) 0#1
     s.status.err = false ∧ s.status.sealed = true ∧ (4#16).toNat < s.nslot ∧ (s.slotAt 4).valid = true ∧
     s.status.pkValid = false) := by decide

/-- The last slot of the store, with and without a cluster list to copy. -/
theorem witness_ACommitCopiesTheTile :
    loading.status.err = false ∧ loading.status.sealed = false ∧ (63#16).toNat < loading.nslot ∧
    loading.status.sValid = true ∧ Sparse.wf Slot.empty loading.slots = true ∧ loading.status.pkValid = true ∧
    (loaded (flags false false true true false) 0#1).status.pkValid = false := by decide

theorem witness_ASealSetsSealed : loading.status.err = false ∧ (matching 0#1).status.err = false := ⟨rfl, rfl⟩

theorem witness_WinnerIsGreatestThenLowest :
    let cs : List Candidate := [⟨0, 7, 5, false⟩, ⟨3, 2, 5, false⟩, ⟨4, 2, 5, true⟩, ⟨5, 1, -1, false⟩]
    cs ≠ [] ∧ winner cs = some ⟨3, 2, 5, false⟩ := by decide

/-- Both algorithms. -/
theorem witness_MatchWritesTheWinner :
    ((matching 0#1).status.err = false ∧ (matching 0#1).status.sealed = true ∧ (matching 0#1).status.sValid = true ∧
      (matching 0#1).MemOk ∧ (matching 0#1).cfg.matchalg = 0#1) ∧
    ((matching 1#1).status.pkValid = true ∧
      ∀ k, k < (matching 1#1).nslot → ((matching 1#1).slotAt k).valid = true → ((matching 1#1).slotAt k).pkvalid = true) ∧
    ∃ k, k < (matching 1#1).nslot ∧ ((matching 1#1).slotAt k).valid = true ∧ ((matching 1#1).slotAt k).pixcnt ≠ 0#24 :=
  ⟨⟨rfl, rfl, rfl, loaded_memOk _ _, rfl⟩,
   ⟨rfl, fun k _ => loaded_slots (fun x => x.valid = true → x.pkvalid = true) (by decide) (by decide) (by decide) _ _ k⟩,
   1, by decide, rfl, by decide⟩

/-- A state for each check: the sealed store, a slot past it, no `S`; no `S` for `MATCH`, no clusters for the peak matcher;
and a store without a pixel. -/
theorem witness_CommitAndMatchChecks :
    ((matching 0#1).status.err = false ∧ (matching 0#1).MemOk ∧ (matching 0#1).status.sealed = true) ∧
    (loading.status.sealed = false ∧ loading.MemOk ∧ loading.nslot ≤ (64#16).toNat ∧ (63#16).toNat < loading.nslot ∧
      (loaded (flags false false true false false) 0#1).status.sValid = false) ∧
    ((loaded (flags false true true false false) 0#1).status.sValid = false ∧
      (loaded (flags false true true true false) 1#1).cfg.matchalg = 1#1 ∧
      (loaded (flags false true true true false) 1#1).status.pkValid = false) ∧
    (let s := flagged (flags false true true true true)
     s.status.err = false ∧ s.status.sealed = true ∧ s.status.sValid = true ∧ s.cfg.matchalg = 0#1 ∧
     ∀ k, k < s.nslot → (s.slotAt k).valid = true → (s.slotAt k).pixcnt = 0#24) :=
  ⟨⟨rfl, loaded_memOk _ _, rfl⟩, ⟨rfl, loaded_memOk _ _, by decide, by decide, rfl⟩, ⟨rfl, rfl, rfl⟩,
   rfl, rfl, rfl, rfl, fun _ _ h => by cases h⟩

theorem witness_ReadsChangeNothing : 0 % 4 = 0 ∧ 252 % 4 = 0 ∧ 252 < 256 := by decide

theorem witness_ZeroReadsAndTheStatusWord :
    0x04 = 0x04 ∧ (0xAC % 4 = 0 ∧ 0xAC ≤ 0xAC ∧ 0xAC ≤ 0xFC) ∧ (0xFC % 4 = 0 ∧ 0xAC ≤ 0xFC ∧ 0xFC ≤ 0xFC) := by decide

theorem witness_ReadOnlyAndUnmappedWritesFault :
    fresh.status.err = false ∧
    0xA8 ∈ [0x00, 0x08, 0x0C, 0x10, 0x1C, 0x2C, 0x30, 0x34, 0x38, 0x3C, 0x74, 0x80, 0x84, 0x8C, 0x90, 0x94, 0x98, 0x9C,
      0xA0, 0xA4, 0xA8] ∧
    (0xAC % 4 = 0 ∧ 0xAC ≤ 0xAC ∧ 0xAC ≤ 0xFC) ∧ (0xFC % 4 = 0 ∧ 0xAC ≤ 0xFC ∧ 0xFC ≤ 0xFC) := by decide

theorem witness_DataRegisterWrites : fresh.status.err = false := rfl

/-- Both ends of every register's range, and the value just above it; for `MAXPEAKS` also the one just below. -/
theorem witness_ConfigRegisterWrites :
    fresh.status.err = false ∧
    (∀ e ∈ [((0x44, 0, 4) : Nat × Nat × Nat), (0x48, 0, 256), (0x4C, 0, 256), (0x50, 0, 256), (0x54, 0, 256),
        (0x58, 0, 256), (0x5C, 0, 1), (0x60, 1, 16), (0x64, 0, 255), (0x68, 0, 255), (0x6C, 0, 255)],
      e.2.1 ≤ (BitVec.ofNat 32 e.2.1).toNat ∧ (BitVec.ofNat 32 e.2.2).toNat ≤ e.2.2 ∧
      ¬ (e.2.1 ≤ (BitVec.ofNat 32 (e.2.2 + 1)).toNat ∧ (BitVec.ofNat 32 (e.2.2 + 1)).toNat ≤ e.2.2)) ∧
    ¬ (1 ≤ (0#32).toNat ∧ (0#32).toNat ≤ 16) ∧ (0 ≤ (0xFFFFFFFF#32).toNat ∧ (0xFFFFFFFF#32).toNat ≤ 0xFFFFFFFF) := by
  decide

/-- The four clauses: out of range, the same value, locked, not locked. -/
theorem witness_DepthWriteAndItsLock :
    (fresh.status.err = false ∧ ¬ (2 ≤ (33#32).toNat ∧ (33#32).toNat ≤ 32) ∧ ¬ (2 ≤ (1#32).toNat ∧ (1#32).toNat ≤ 32)) ∧
    (2 ≤ (16#32).toNat ∧ (16#32).toNat ≤ 32 ∧ (16#32).toNat = fresh.d) ∧
    (loading.MemOk ∧ (32#32).toNat ≠ loading.d ∧ loading.pixcnt ≠ 0#24) ∧
    (2 ≤ (2#32).toNat ∧ (2#32).toNat ≠ fresh.d ∧ ¬ (fresh.pixcnt ≠ 0#24 ∨ fresh.status.sValid = true ∨
      ∃ k, k < fresh.nslot ∧ (fresh.slotAt k).valid = true)) := by
  refine ⟨by decide, by decide, ⟨loaded_memOk _ _, by decide, by decide⟩, by decide, by decide, ?_⟩
  rintro (h | h | ⟨k, -, h⟩)
  · exact h rfl
  · cases h
  · cases h

/-- A legal and an illegal value of each window register. -/
theorem witness_WindowRegisterWrites :
    fresh.status.err = false ∧ (0xFFFF0002#32 &&& 3#32 ≠ 3#32 ∧ 0xFFFF0002#32 &&& 0xFFFC#32 = 0#32) ∧
    ¬ (0x00000003#32 &&& 3#32 ≠ 3#32 ∧ 0x00000003#32 &&& 0xFFFC#32 = 0#32) ∧ (32767#32).toNat ≤ 32767 ∧
    32767 < (32768#32).toNat ∧ 0xFFFF010F#32 &&& 0xFEF0#32 = 0#32 ∧ 0x00000010#32 &&& 0xFEF0#32 ≠ 0#32 := by decide

/-- A state with one listed cluster: the entry 0 exists, the entry 15 does not. -/
theorem witness_ClusterWindowReads :
    loading.MemOk ∧ (fresh.win.clsel.toNat % 16 = 0) ∧
    ([⟨0#5, 1#5, 1#5, 0x4000000#48⟩] : List Cluster)[0]? = some ⟨0#5, 1#5, 1#5, 0x4000000#48⟩ ∧
    loading.tcl.length ≤ (15#32).toNat % 16 := ⟨loaded_memOk _ _, rfl, rfl, by decide⟩

/-- A valid slot, and a selection past the store. -/
theorem witness_SlotInformationReads :
    (let s := loading.setWin { WinRegs.reset with hsel := 0x00040000#32 }
     s.win.hsel.toNat / 2 ^ 16 < s.nslot ∧ (s.slotAt (s.win.hsel.toNat / 2 ^ 16)).valid = true) ∧
    (let s := loading.setWin { WinRegs.reset with hsel := 0x00400000#32 }
     ¬ (s.win.hsel.toNat / 2 ^ 16 < s.nslot ∧ (s.slotAt (s.win.hsel.toNat / 2 ^ 16)).valid = true)) ∧ loading.MemOk :=
  ⟨by decide, by decide, loaded_memOk _ _⟩

theorem witness_FaultedMachineDropsWrites :
    (flagged (flags true false false false false)).status.err = true ∧ 0x04 % 4 = 0 ∧ 0x04 < 256 ∧
    ¬ (0x04 = 0x04 ∧ 0x00000000#32 = 0x01000000#32) := by decide

/-- A faulting command, a faulting `PIXPUSH` and a faulting register write. -/
theorem witness_FaultsArePrecise :
    ∀ a ∈ [Access.wr .word 0x04 0x21000000#32, .wr .word 0x14 5#32, .wr .word 0x44 5#32],
      (fresh.setPending [a]).status.err = false ∧ (after (step (fresh.setPending [a]))).status.err = true := by
  decide +kernel

theorem witness_OnlySresetClearsStickyFlags :
    let s := (flagged (flags true true false false false)).setPending [.wr .word 0x04 0x01000000#32]
    step s = .next fresh ∧ s.status.err = true ∧ fresh.status.err = false ∧ s.status.sealed = true ∧
    fresh.status.sealed = false := ⟨rfl, rfl, rfl, rfl, rfl⟩

theorem witness_SealedSlotsAreFrozen :
    let s := (flagged (flags false true false false false)).setPending [.rd .word 0x08]
    step s = .next (after (step s)) ∧ s.status.sealed = true ∧
    ∀ v rest, s.pending ≠ .wr .word 0x04 v :: rest := ⟨rfl, rfl, fun _ _ h => by cases h⟩

/-- `A.SEAL` issued in a state that meets every invariant: one witness for the five statements about a step. -/
theorem witness_StepKeeps :
    let s := loading.setPending [.wr .word 0x04 0x41000000#32]
    loading.RegsOk ∧ loading.MemOk ∧ loading.FlagsOk ∧ loading.CountsOk ∧ loading.MassOk ∧ loading.FaultOk ∧
    loading.ResultsOk ∧ loading.ClustersOk ∧ s.RegsOk ∧ s.MemOk ∧ s.FlagsOk ∧ s.CountsOk ∧ s.MassOk ∧ s.FaultOk ∧
    s.ResultsOk ∧ s.ClustersOk ∧ step s = .next (matching 0#1) := by
  have h1 := loaded_regsOk (flags false false true true true) 0#1
  have h2 := loaded_memOk (flags false false true true true) 0#1
  have h3 := loaded_massOk (flags false false true true true) 0#1
  exact ⟨h1, h2, loading_flagsOk, loaded_countsOk _ _, h3, loading_faultOk, loading_resultsOk, loading_clustersOk,
    ⟨h1.1, h1.2, h1.3, h1.4, h1.5, h1.6, h1.7, h1.8⟩, ⟨h2.1, h2.2, h2.3, h2.4, h2.5, h2.6, h2.7⟩,
    ⟨loading_flagsOk.1, loading_flagsOk.2, loading_flagsOk.3, loading_flagsOk.4⟩, loaded_countsOk _ _, ⟨h3.1, h3.2, h3.3, h3.4⟩,
    ⟨loading_faultOk.1, loading_faultOk.2⟩,
    ⟨loading_resultsOk.1, loading_resultsOk.2, loading_resultsOk.3, loading_resultsOk.4, loading_resultsOk.5⟩,
    ⟨loading_clustersOk.1, loading_clustersOk.2⟩, rfl⟩

theorem witness_ReachableStatesMeetTheInvariants :
    Reachable (after (step (fresh.setPending [.wr .word 0x04 0x20000000#32]))) :=
  .step (fresh.setPending [.wr .word 0x04 0x20000000#32]) _ (.issue _ _ (.reset 63)) rfl

end Sys2Proof.Tests
end

section
/-! The step at a `CMD` write: from the pending list to the access, from the access to the word, from the word to the
command (00_scope R5, 60_exceptions R193). -/

namespace Sys2Proof.Machine

/-- The step performs the oldest pending access, with the access taken off the list (00_scope R5). -/
theorem step_of_pending {s : State} {a : Access} {rest : List Access} (h : s.pending = a :: rest) :
    step s = (s.setPending rest).access a := by
  rw [step, h]

/-- A word that decodes to a command runs that command (60_exceptions R193). -/
theorem writeCmd_of_decode (s : State) {w : Word} {i : Instr} (h : decode w = .ok i) : s.writeCmd w = exec i s := by
  rw [State.writeCmd, h]

/-- Settles O4: the step is the access, the access to `CMD` is the write of the word, and the word is its command. Every
command is well formed, so the last premise is not needed. -/
theorem stepRunsTheDecodedCommand : Obligations.StepRunsTheDecodedCommand := by
  intro s w i rest hpending hdecode _
  calc step s
      = (s.setPending rest).access (.wr .word 0x04 w) := step_of_pending hpending
    _ = (s.setPending rest).writeCmd w := access_wr_cmd _ w
    _ = exec i (s.setPending rest) := writeCmd_of_decode _ hdecode

end Sys2Proof.Machine
end

section
/-! Register writes: what the write of a legal and of an illegal value does, the legal sets as the host sees them, and that
an installed value reads back (10_state R11, R15, R18 to R20; 20_memory R48). -/

namespace Sys2Proof.Machine

/-! ## Words and fields -/

/-- A value that fits a field of `n` bits is read back from it unchanged. -/
theorem setWidth_setWidth_of_lt {n : Nat} {v : Word} (h : v.toNat < 2 ^ n) : (v.setWidth n).setWidth 32 = v := by
  apply BitVec.eq_of_toNat_eq
  rw [BitVec.toNat_setWidth, BitVec.toNat_setWidth, Nat.mod_eq_of_lt h, Nat.mod_eq_of_lt v.isLt]

/-- A 16-bit field keeps the low half of a word. -/
theorem setWidth_setWidth_eq_and (v : Word) : (v.setWidth 16).setWidth 32 = v &&& 0xFFFF#32 := by
  apply BitVec.eq_of_toNat_eq
  have hlow : v.toNat &&& 0xFFFF = v.toNat % 2 ^ 16 := Nat.and_two_pow_sub_one_eq_mod v.toNat 16
  have hlt : v.toNat % 2 ^ 16 < 2 ^ 32 := by omega
  rw [BitVec.toNat_setWidth, BitVec.toNat_setWidth, BitVec.toNat_and, BitVec.toNat_ofNat, Nat.mod_eq_of_lt hlt]
  exact hlow.symm

/-- The word with ones at the bits `[a + n - 1 : a]`. -/
def fieldMask (a n : Nat) : Word := (BitVec.allOnes n).setWidth 32 <<< a

/-- The bits of a field are all zero exactly when the masked word is. -/
theorem extractLsb'_eq_zero_iff (v : Word) (a n : Nat) : v.extractLsb' a n = 0#n ↔ v &&& fieldMask a n = 0#32 := by
  simp only [BitVec.eq_of_getLsbD_eq_iff, fieldMask, BitVec.getLsbD_extractLsb', BitVec.getLsbD_and,
    BitVec.getLsbD_shiftLeft, BitVec.getLsbD_setWidth, BitVec.getLsbD_allOnes, BitVec.getLsbD_zero]
  constructor
  · intro h i hi
    by_cases hfield : a ≤ i ∧ i - a < n
    · have hbit := h (i - a) hfield.2
      rw [Nat.add_sub_cancel' hfield.1, decide_eq_true hfield.2, Bool.true_and] at hbit
      rw [hbit, Bool.false_and]
    · simp only [Bool.and_eq_false_iff, decide_eq_false_iff_not, Bool.not_eq_false', decide_eq_true_eq]
      omega
  · intro h j hj
    by_cases hin : a + j < 32
    · simpa [hin, hj, show j < 32 by omega] using h (a + j) hin
    · rw [BitVec.getLsbD_of_ge v _ (by omega), Bool.and_false]

/-- `KIND` of a window word, as a mask. -/
theorem extractLsb'_eq_three_iff (v : Word) : v.extractLsb' 0 2 = 3#2 ↔ v &&& 3#32 = 3#32 := by
  have hand : (v &&& 3#32).toNat = v.toNat % 2 ^ 2 := by
    rw [BitVec.toNat_and]; exact Nat.and_two_pow_sub_one_eq_mod v.toNat 2
  rw [← BitVec.toNat_inj, ← BitVec.toNat_inj, hand, BitVec.extractLsb'_toNat, Nat.shiftRight_zero]
  exact Iff.rfl

/-- The legal values of `HSEL`, as masks (10_state R20). -/
theorem hselLegal_iff (v : Word) : hselLegal v = true ↔ v &&& 3#32 ≠ 3#32 ∧ v &&& 0xFFFC#32 = 0#32 := by
  have hmask : fieldMask 2 14 = 0xFFFC#32 := by decide
  rw [hselLegal, Bool.and_eq_true, decide_eq_true_eq, decide_eq_true_eq, Ne, extractLsb'_eq_three_iff,
    extractLsb'_eq_zero_iff, hmask]

/-- The legal values of `CLSEL`, as a mask (10_state R20). -/
theorem clselLegal_iff (v : Word) : clselLegal v = true ↔ v &&& 0xFEF0#32 = 0#32 := by
  have hmask : 0xFEF0#32 = fieldMask 4 4 ||| fieldMask 9 7 := by decide
  rw [clselLegal, Bool.and_eq_true, decide_eq_true_eq, decide_eq_true_eq, extractLsb'_eq_zero_iff,
    extractLsb'_eq_zero_iff, hmask, BitVec.and_or_distrib_left, BitVec.or_eq_zero_iff]

/-! ## What a write does -/

/-- A legal value is installed (20_memory R48). -/
theorem access_wr_legal {s : State} (herr : s.status.err = false) {r : Reg} (hcmd : r ≠ .cmd) (hmode : r.mode ≠ .ro)
    {v : Word} (hv : r.legal v = true) : s.access (.wr .word r.offset v) = .next (s.install r v) := by
  rw [access_wr_reg s hcmd, State.gate_of_clear herr, State.writeReg, if_neg hmode, if_pos hv]

/-- An illegal value raises `ERR_BAD_CFG` with the offset and is not installed (20_memory R48). -/
theorem access_wr_illegal {s : State} (herr : s.status.err = false) {r : Reg} (hcmd : r ≠ .cmd) (hmode : r.mode ≠ .ro)
    {v : Word} (hv : ¬ r.legal v = true) : s.access (.wr .word r.offset v) = .next (s.setStatus
      { s.status with err := true, errCode := 2#32, errInfo := BitVec.ofNat 32 r.offset }) := by
  rw [access_wr_reg s hcmd, State.gate_of_clear herr, State.writeReg, if_neg hmode, if_neg hv, State.raiseAt,
    State.raise_of_clear herr]
  rfl

/-- A read at a register's offset is a read of the register. -/
theorem readAt_offset (s : State) (r : Reg) : s.readAt r.offset = s.readReg r := by
  rw [State.readAt, Reg.atOffset_offset]

/-- Settles O43: the data registers take any word, and a read shows the field that keeps it. -/
theorem dataRegisterWrites : Obligations.DataRegisterWrites := by
  intro s v herr
  refine ⟨⟨_, access_wr_legal (r := .pixin) herr (by decide) (by decide) rfl, rfl, rfl⟩,
    ⟨_, access_wr_legal (r := .hclH) herr (by decide) (by decide) rfl, rfl, ?_⟩,
    ⟨_, access_wr_legal (r := .hclC) herr (by decide) (by decide) rfl, rfl, ?_⟩,
    ⟨_, access_wr_legal (r := .hclL) herr (by decide) (by decide) rfl, rfl, ?_⟩⟩
  · exact (readAt_offset _ .hclH).trans (setWidth_setWidth_eq_and v)
  · exact (readAt_offset _ .hclC).trans (setWidth_setWidth_eq_and v)
  · exact (readAt_offset _ .hclL).trans (setWidth_setWidth_eq_and v)

/-! ## Configuration registers -/

/-- The configuration registers but `DEPTH`, each with the least and the greatest value it takes (10_state R18). -/
def configRanges : List (Reg × Nat × Nat) :=
  [(.sradius, 0, 4), (.ktap0, 0, 256), (.ktap1, 0, 256), (.ktap2, 0, 256), (.ktap3, 0, 256), (.ktap4, 0, 256),
   (.matchalg, 0, 1), (.maxpeaks, 1, 16), (.pdsH, 0, 255), (.pdsC, 0, 255), (.pdsL, 0, 255), (.assetId, 0, 0xFFFFFFFF)]

/-- The configuration registers but `DEPTH`. -/
def configRegs : List Reg := configRanges.map Prod.fst

theorem mem_configRegs {r : Reg} {lo hi : Nat} (h : (r, lo, hi) ∈ configRanges) : r ∈ configRegs :=
  List.mem_map_of_mem h

theorem ne_cmd_of_mem_configRegs {r : Reg} (h : r ∈ configRegs) : r ≠ .cmd := by
  rintro rfl; exact absurd h (by decide)

theorem mode_of_mem_configRegs : ∀ r ∈ configRegs, r.mode ≠ .ro := by decide

/-- The legal set of a configuration register is its range. -/
theorem legal_iff_of_mem_configRanges {r : Reg} {lo hi : Nat} (h : (r, lo, hi) ∈ configRanges) (v : Word) :
    r.legal v = true ↔ lo ≤ v.toNat ∧ v.toNat ≤ hi := by
  simp only [configRanges, List.mem_cons, Prod.mk.injEq, List.not_mem_nil, or_false] at h
  rcases h with h | h | h | h | h | h | h | h | h | h | h | h <;> obtain ⟨rfl, rfl, rfl⟩ := h <;>
    simp [Reg.legal, Nat.le_of_lt_succ v.isLt]

/-- A statement about every configuration register is one about each of the twelve. -/
theorem forall_mem_configRegs {p : Reg → Prop} : (∀ r ∈ configRegs, p r) ↔
    p .sradius ∧ p .ktap0 ∧ p .ktap1 ∧ p .ktap2 ∧ p .ktap3 ∧ p .ktap4 ∧ p .matchalg ∧ p .maxpeaks ∧ p .pdsH ∧ p .pdsC ∧
    p .pdsL ∧ p .assetId := by
  simp [configRegs, configRanges]

/-- Installing a configuration value changes the configuration alone, and not the depth. -/
theorem install_config : ∀ r ∈ configRegs, ∀ (s : State) (v : Word),
    s.install r v = s.setCfg (s.install r v).cfg ∧ (s.install r v).cfg.depth = s.cfg.depth :=
  forall_mem_configRegs.2 (by refine ⟨?_, ?_, ?_, ?_, ?_, ?_, ?_, ?_, ?_, ?_, ?_, ?_⟩ <;> exact fun _ _ => ⟨rfl, rfl⟩)

/-- A legal value of a configuration register reads back. -/
theorem readReg_install_self : ∀ r ∈ configRegs, ∀ (s : State) (v : Word), r.legal v = true →
    (s.install r v).readReg r = v := by
  refine forall_mem_configRegs.2 ⟨?_, ?_, ?_, ?_, ?_, ?_, ?_, ?_, ?_, ?_, ?_, fun _ _ _ => rfl⟩ <;> intro s v hv <;>
    simp only [Reg.legal, Bool.and_eq_true, decide_eq_true_eq] at hv <;> exact setWidth_setWidth_of_lt (by omega)

/-- A configuration register keeps its value when another one is written. -/
theorem readReg_install_config_other : ∀ r ∈ configRegs, ∀ r' ∈ configRegs, r' ≠ r → ∀ (s : State) (v : Word),
    (s.install r v).readReg r' = s.readReg r' := by
  simp only [forall_mem_configRegs]
  simp only [ne_eq, reduceCtorEq, not_false_eq_true, not_true_eq_false, forall_const, false_implies]
  simp only [State.install, State.readReg, State.setCfg_cfg, implies_true, and_self]

/-- The histogram window shows nothing of the configuration but the depth (20_memory R49). -/
theorem histWindow_setCfg {s : State} {x : CfgRegs} (hd : x.depth = s.cfg.depth) :
    (s.setCfg x).histWindow = s.histWindow := by
  have hn : (s.setCfg x).ncell = s.ncell := by simp only [State.ncell, State.d, State.setCfg_cfg, hd]
  simp only [State.histWindow, hn, State.setCfg_win, State.setCfg_status, State.setCfg_h, State.setCfg_smooth,
    State.setCfg_slotAt, State.setCfg_slotValid]

/-- A register outside the configuration, or `DEPTH`, reads the same under a configuration of the same depth. -/
theorem readReg_setCfg {s : State} {x : CfgRegs} (hd : x.depth = s.cfg.depth) {r : Reg} (hr : r ∉ configRegs) :
    (s.setCfg x).readReg r = s.readReg r := by
  cases r
  case depth => exact congrArg (BitVec.setWidth 32) hd
  case hdataLo => exact congrArg loWord (histWindow_setCfg hd)
  case hdataHi => exact congrArg hiWord (histWindow_setCfg hd)
  case sradius | ktap0 | ktap1 | ktap2 | ktap3 | ktap4 | matchalg | maxpeaks | pdsH | pdsC | pdsL | assetId =>
    exact absurd (by decide) hr
  all_goals rfl

/-- Installing a value in one configuration register leaves what every other register reads. -/
theorem readReg_install_other {r : Reg} (hr : r ∈ configRegs) (s : State) (v : Word) {r' : Reg} (hne : r' ≠ r) :
    (s.install r v).readReg r' = s.readReg r' := by
  by_cases hr' : r' ∈ configRegs
  · exact readReg_install_config_other r hr r' hr' hne s v
  · obtain ⟨heq, hdepth⟩ := install_config r hr s v
    rw [heq, readReg_setCfg hdepth hr']

/-- The same at every offset of the window, mapped or not. -/
theorem readAt_install_other {r : Reg} (hr : r ∈ configRegs) (s : State) (v : Word) {off : Nat} (hne : off ≠ r.offset) :
    (s.install r v).readAt off = s.readAt off := by
  unfold State.readAt
  cases hoff : Reg.atOffset off with
  | none => rfl
  | some r' =>
    refine readReg_install_other hr s v ?_
    rintro rfl
    exact hne (Reg.offset_of_atOffset hoff)

/-- Every row of `configRanges` at its offset: the legal values are installed and read back, the others fault. -/
theorem access_wr_config {s : State} (herr : s.status.err = false) {r : Reg} {lo hi : Nat}
    (h : (r, lo, hi) ∈ configRanges) (v : Word) :
    (lo ≤ v.toNat ∧ v.toNat ≤ hi →
      ∃ t, s.access (.wr .word r.offset v) = .next t ∧ t = s.setCfg t.cfg ∧ t.readAt r.offset = v ∧
        ∀ off', off' ≠ r.offset → t.readAt off' = s.readAt off') ∧
    (¬ (lo ≤ v.toNat ∧ v.toNat ≤ hi) →
      s.access (.wr .word r.offset v) = .next (s.setStatus
        { s.status with err := true, errCode := 2#32, errInfo := BitVec.ofNat 32 r.offset })) := by
  have hr := mem_configRegs h
  have hcmd := ne_cmd_of_mem_configRegs hr
  have hmode := mode_of_mem_configRegs r hr
  rw [← legal_iff_of_mem_configRanges h]
  refine ⟨fun hv => ?_, access_wr_illegal herr hcmd hmode⟩
  refine ⟨s.install r v, access_wr_legal herr hcmd hmode hv, (install_config r hr s v).1, ?_,
    fun off' => readAt_install_other hr s v⟩
  rw [readAt_offset, readReg_install_self r hr s v hv]

/-- Settles O44: every triple of the statement is a row of `configRanges` with its register's offset. -/
theorem configRegisterWrites : Obligations.ConfigRegisterWrites := by
  intro s off lo hi v herr hrow
  have hrows : (off, lo, hi) ∈ configRanges.map fun e => (e.1.offset, e.2) := hrow
  obtain ⟨⟨r, lo', hi'⟩, hmem, heq⟩ := List.mem_map.1 hrows
  cases heq
  exact access_wr_config herr hmem v

/-! ## `DEPTH` -/

/-- The lock of `DEPTH` in the terms of 10_state R19. -/
theorem State.locked_iff {s : State} (h : Sparse.wf Slot.empty s.slots = true) : s.locked = true ↔
    s.pixcnt ≠ 0#24 ∨ s.status.sValid = true ∨ ∃ k, k < s.nslot ∧ (s.slotAt k).valid = true := by
  have hslots : (!s.validSlots.isEmpty) = true ↔ ∃ k, k < s.nslot ∧ (s.slotAt k).valid = true := by
    rw [Bool.not_eq_true', List.isEmpty_eq_false_iff_exists_mem]
    constructor
    · rintro ⟨e, he⟩
      have hv := ((State.mem_validSlots_iff h).1 he).1
      rw [State.slotValid, Bool.and_eq_true, decide_eq_true_eq] at hv
      exact ⟨e.1, hv⟩
    · rintro ⟨k, hlt, hv⟩
      exact ⟨(k, s.slotAt k), (State.mem_validSlots_iff h).2 ⟨by simp [State.slotValid, hlt, hv], rfl⟩⟩
  rw [State.locked, Bool.or_eq_true, Bool.or_eq_true, hslots, decide_eq_true_eq, or_assoc]

/-- A word equals the depth register's reading exactly when it equals the depth. -/
theorem eq_setWidth_depth_iff (s : State) (v : Word) : v = s.cfg.depth.setWidth 32 ↔ v.toNat = s.d := by
  rw [← BitVec.toNat_inj, BitVec.toNat_setWidth, Nat.mod_eq_of_lt (by omega)]
  exact Iff.rfl

theorem legal_depth_iff (v : Word) : Reg.depth.legal v = true ↔ 2 ≤ v.toNat ∧ v.toNat ≤ 32 := by
  simp [Reg.legal]

/-- The depth field holds a legal depth without loss. -/
theorem toNat_setWidth_depth {v : Word} (hv : Reg.depth.legal v = true) : (v.setWidth 6).toNat = v.toNat := by
  have hle := ((legal_depth_iff v).1 hv).2
  rw [BitVec.toNat_setWidth, Nat.mod_eq_of_lt (by omega)]

/-- Settles O45: the legality check first, then the three branches of a legal write. -/
theorem depthWriteAndItsLock : Obligations.DepthWriteAndItsLock := by
  intro s v herr hmem
  rw [← legal_depth_iff, ← State.locked_iff hmem.slots_wf, Ne, ← eq_setWidth_depth_iff]
  have hwrite : Reg.depth.legal v = true → s.access (.wr .word 0x40 v) = .next (s.writeDepth v) :=
    access_wr_legal (r := .depth) herr (by decide) (by decide)
  refine ⟨access_wr_illegal (r := .depth) herr (by decide) (by decide), fun hv hsame => ?_, fun hv hne hlock => ?_,
    fun hv hne hfree => ?_⟩
  · rw [hwrite hv, State.writeDepth, if_pos hsame]
  · rw [hwrite hv, State.writeDepth, if_neg hne, if_pos hlock, State.raiseAt, State.raise_of_clear herr]
    rfl
  · refine ⟨_, hwrite hv, ?_, ?_⟩
    all_goals rw [State.writeDepth, if_neg hne, if_neg hfree]
    · exact toNat_setWidth_depth hv
    · rfl

/-! ## Window registers -/

theorem legal_haddr_iff (v : Word) : Reg.haddr.legal v = true ↔ v.toNat ≤ 32767 := decide_eq_true_iff

/-- Settles O46: the three legal sets as the host sees them, and the two outcomes of a checked write. -/
theorem windowRegisterWrites : Obligations.WindowRegisterWrites := by
  intro s v herr
  rw [← hselLegal_iff, ← legal_haddr_iff, Ne, ← clselLegal_iff, ← Nat.not_le, ← legal_haddr_iff]
  refine ⟨access_wr_legal (r := .hsel) herr (by decide) (by decide),
    access_wr_illegal (r := .hsel) herr (by decide) (by decide), fun hv => ?_,
    access_wr_illegal (r := .haddr) herr (by decide) (by decide),
    access_wr_legal (r := .clsel) herr (by decide) (by decide),
    access_wr_illegal (r := .clsel) herr (by decide) (by decide)⟩
  refine ⟨_, access_wr_legal (r := .haddr) herr (by decide) (by decide) hv, rfl, ?_⟩
  have hlt := (legal_haddr_iff v).1 hv
  exact (readAt_offset _ .haddr).trans (setWidth_setWidth_of_lt (n := 15) (by omega))

end Sys2Proof.Machine
end

section
/-! What a step does to the CME, in primitive changes. Every step is the `SRESET` command or a sequence of changes of the two
kinds below, so an invariant is kept by every step, and holds in every reachable state, when it holds at reset and each
change keeps it. -/

namespace Sys2Proof.Machine

/-! ## The primitive changes -/

/-- The changes that leave the tile and the asset store as they are. -/
inductive OuterChange (s : State) : State → Prop
  /-- The host's side of the interface: the pending accesses, the Value of a read (logs 1, 2). -/
  | host (p : List Access) (v : Word) : OuterChange s ((s.setPending p).setRdata v)
  /-- A fault is latched (60_exceptions R191). -/
  | fault (c : ErrCode) (info : Word) (herr : s.status.err = false) :
      OuterChange s (s.setStatus { s.status with err := true, errCode := c.code, errInfo := info })
  /-- A data register other than `RED` and the scores is written (10_state R11). -/
  | operand (x : DataRegs) (hred : x.red = s.data.red) (hscore : x.score = s.data.score)
      (hbest : x.bestScore = s.data.bestScore) : OuterChange s (s.setData x)
  /-- `QUANT` (41_quantize R111). -/
  | reduced : OuterChange s (s.setData { s.data with red := reducedWord (quant s.data.hcl s.d) })
  /-- `S.CORR` and `S.PEAK` (43_correlation R142, 44_peak R159). -/
  | scored (r : Int × Bool) (hge : -(2 ^ 30) ≤ r.1) (hle : r.1 ≤ 2 ^ 30) : OuterChange s (s.setScore r)
  /-- `MATCH` (45_assets_match R174). -/
  | best (w : Candidate) (hge : -(2 ^ 30) ≤ w.score) (hle : w.score ≤ 2 ^ 30) : OuterChange s (s.setBest w)
  /-- A legal value of a configuration register other than `DEPTH` (10_state R18). -/
  | config (x : CfgRegs) (hdepth : x.depth = s.cfg.depth) (hlegal : s.RegsOk → (s.setCfg x).RegsOk) :
      OuterChange s (s.setCfg x)
  /-- A legal value of a window register (10_state R20). -/
  | window (x : WinRegs) (hlegal : s.RegsOk → (s.setWin x).RegsOk) : OuterChange s (s.setWin x)
  /-- `A.SEAL` (45_assets_match R171). -/
  | sealed : OuterChange s (s.setStatus s.status.seal)

/-- The changes of the tile and of the asset store. -/
inductive TileChange (s : State) : State → Prop
  /-- Another `DEPTH` while nothing locks it (10_state R19). -/
  | depth (v : Word) (hlegal : Reg.depth.legal v = true) (hfree : s.locked = false) :
      TileChange s ((s.setCfg { s.cfg with depth := v.setWidth 6 }).setStatus s.status.uncleared)
  /-- `H.CLEAR` (42_histogram R120). -/
  | cleared : TileChange s
      (((s.setH (Sparse.replaceBelow s.ncell [] s.h)).setPixcnt 0#24).setStatus s.status.cleared)
  /-- `H.ACC` and `PIXPUSH` count a pixel (42_histogram R121). -/
  | counted (hinit : s.status.hInit = true) (hroom : s.pixcnt.toNat ≠ 2 ^ 24 - 1) :
      TileChange s (s.count (pixelCell s.data.pixin s.d))
  /-- `H.SMOOTH` (42_histogram R127). -/
  | smoothed (hinit : s.status.hInit = true) (htaps : s.cfg.tapSum = Config.tapOne) : TileChange s
      ((s.setSmooth (Sparse.replaceBelow s.ncell (smoothed s.cfg s.d s.h) s.smooth)).setStatus s.status.smoothed)
  /-- `P.EXTRACT` (44_peak R153). -/
  | extracted (hvalid : s.status.sValid = true) : TileChange s
      ((s.setTcl (peaks s.smooth s.d s.cfg.maxpeaks.toNat)).setStatus s.status.extracted)
  /-- `A.COMMIT` (45_assets_match R170). -/
  | committed (k : Nat) (hopen : s.status.sealed = false) (hk : k < s.nslot) (hvalid : s.status.sValid = true) :
      TileChange s (s.setSlot k (s.committed (s.slotAt k)))

/-- One primitive change. -/
def Change (s t : State) : Prop := OuterChange s t ∨ TileChange s t

/-- A sequence of primitive changes. A step makes at most two: `PIXPUSH` writes `PIXIN` and counts the pixel. -/
abbrev Changes : State → State → Prop := Relation.ReflTransGen Change

/-! ## Sequences of changes -/

theorem Changes.outer {s t : State} (h : OuterChange s t) : Changes s t := .single (.inl h)

theorem Changes.tile {s t : State} (h : TileChange s t) : Changes s t := .single (.inr h)

/-- What each change keeps, a sequence keeps. -/
theorem Changes.keeps {p : State → Prop} (hp : ∀ s t, Change s t → p s → p t) {s t : State} (h : Changes s t) (hs : p s) :
    p t := by
  induction h with
  | refl => exact hs
  | tail _ hstep ih => exact hp _ _ hstep ih

/-- Raising a fault is a change, or nothing while one is latched. -/
theorem Changes.raise (s : State) (c : ErrCode) (info : Word) : Changes s (s.raise c info) := by
  cases herr : s.status.err with
  | false => rw [State.raise_of_clear herr]; exact Changes.outer (.fault c info herr)
  | true => rw [State.raise_of_err herr]

/-- The gate adds no change. -/
theorem Changes.gate {s e : State} (h : Changes s e) : Changes s (s.gate e) := by
  cases herr : s.status.err with
  | false => rwa [State.gate_of_clear herr]
  | true => rw [State.gate_of_err herr]

/-- A check goes on with what it guards, or raises a fault. -/
theorem Changes.require {s k : State} {ok : Bool} {c : ErrCode} {i : Instr} (h : ok = true → Changes s k) :
    Changes s (s.require ok c i k) := by
  cases ok with
  | false => exact Changes.raise s c (encode i)
  | true => exact h rfl

/-- Counting the pixel in `PIXIN`, its two checks included (42_histogram R121). -/
theorem Changes.accumulate (s : State) : Changes s s.accumulate :=
  Changes.require fun hinit => Changes.require fun hroom =>
    Changes.tile (.counted hinit (of_decide_eq_true hroom))

/-! ## Ranges of the scores -/

/-- The correlation score lies in `[-2^30, 2^30]` (43_correlation R140, R141). -/
theorem corr_range (n : Nat) (st se : List Nat) : -(2 ^ 30) ≤ (corr n st se).1 ∧ (corr n st se).1 ≤ 2 ^ 30 := by
  unfold corr
  split
  · norm_num
  · exact clamp_bounds (by norm_num) _

/-- The peak score lies in `[0, 2^30]` (44_peak R158, R160). -/
theorem pscore_range (k : CfgRegs) (d : Nat) (ts : List Cluster) (mt : Nat) (es : List Cluster) (me : Nat) :
    0 ≤ (pscore k d ts mt es me).1 ∧ (pscore k d ts mt es me).1 ≤ 2 ^ 30 := by
  unfold pscore
  split
  · norm_num
  · refine ⟨le_min (by norm_num) ?_, min_le_left _ _⟩
    exact Int.ediv_nonneg (mul_nonneg (Int.natCast_nonneg _) (by norm_num))
      (mul_nonneg (Int.natCast_nonneg _) (Int.natCast_nonneg _))

/-- A slot's score lies in `[-2^30, 2^30]` under either algorithm (45_assets_match R172). -/
theorem State.matchScore_range (s : State) (x : Slot) :
    -(2 ^ 30) ≤ (s.matchScore x).1 ∧ (s.matchScore x).1 ≤ 2 ^ 30 := by
  unfold State.matchScore
  split
  · exact corr_range _ _ _
  · obtain ⟨hge, hle⟩ := pscore_range s.cfg s.d s.tcl (totalMass s.pixcnt) x.cl (totalMass x.pixcnt)
    exact ⟨le_trans (by norm_num) hge, hle⟩

/-- The winner is one of the candidates. -/
theorem mem_of_winner : ∀ {cs : List Candidate} {w : Candidate}, winner cs = some w → w ∈ cs
  | [], _, h => by cases h
  | a :: cs, w, h => by
    unfold winner at h
    cases hw : winner cs with
    | none =>
      rw [hw] at h
      cases h
      exact List.mem_cons_self
    | some b =>
      rw [hw] at h
      dsimp only at h
      split at h
      · cases h; exact List.mem_cons_of_mem a (mem_of_winner hw)
      · cases h; exact List.mem_cons_self

/-- The winner's score lies in `[-2^30, 2^30]`. -/
theorem winner_score_range {s : State} {w : Candidate} (h : winner s.candidates = some w) :
    -(2 ^ 30) ≤ w.score ∧ w.score ≤ 2 ^ 30 := by
  obtain ⟨e, _, rfl⟩ := List.mem_map.1 (mem_of_winner h)
  exact s.matchScore_range e.2

/-! ## Commands as changes -/

/-- Every command but `SRESET` is a sequence of changes. -/
theorem exec_changes {i : Instr} (hi : i ≠ .sreset) {s t : State} (h : exec i s = .next t) : Changes s t := by
  cases i with
  | nop => rw [exec_nop] at h; cases h; exact .refl
  | sreset => exact absurd rfl hi
  | cvtRgb2hcl =>
    rw [exec_cvtRgb2hcl] at h; cases h
    exact Changes.gate (Changes.outer (.operand _ rfl rfl rfl))
  | cvtHcl2rgb =>
    rw [exec_cvtHcl2rgb] at h; cases h
    exact Changes.gate (Changes.require fun _ => Changes.outer (.operand _ rfl rfl rfl))
  | quant =>
    rw [exec_quant] at h; cases h
    exact Changes.gate (Changes.require fun _ => Changes.outer .reduced)
  | hClear => rw [exec_hClear] at h; cases h; exact Changes.gate (Changes.tile .cleared)
  | hAcc => rw [exec_hAcc] at h; cases h; exact Changes.gate (Changes.accumulate s)
  | hSmooth =>
    rw [exec_hSmooth] at h; cases h
    exact Changes.gate (Changes.require fun hinit => Changes.require fun htaps =>
      Changes.tile (.smoothed hinit (of_decide_eq_true htaps)))
  | pExtract =>
    rw [exec_pExtract] at h; cases h
    exact Changes.gate (Changes.require fun hvalid => Changes.tile (.extracted hvalid))
  | aCommit slot =>
    rw [exec_aCommit] at h; cases h
    exact Changes.gate (Changes.require fun hopen => Changes.require fun hk => Changes.require fun hvalid =>
      Changes.tile (.committed slot.toNat (Bool.not_eq_true' _ ▸ hopen) (of_decide_eq_true hk) hvalid))
  | aSeal => rw [exec_aSeal] at h; cases h; exact Changes.gate (Changes.outer .sealed)
  | sCorr slot =>
    rw [exec_sCorr] at h; cases h
    have hrange := corr_range s.ncell (Sparse.cells s.ncell s.smooth) (Sparse.cells s.ncell (s.slotAt slot.toNat).cells)
    exact Changes.gate (Changes.require fun _ => Changes.require fun _ => Changes.require fun _ =>
      Changes.outer (.scored _ hrange.1 hrange.2))
  | sPeak slot =>
    rw [exec_sPeak] at h; cases h
    have hrange := pscore_range s.cfg s.d s.tcl (totalMass s.pixcnt) (s.slotAt slot.toNat).cl
      (totalMass (s.slotAt slot.toNat).pixcnt)
    exact Changes.gate (Changes.require fun _ => Changes.require fun _ => Changes.require fun _ =>
      Changes.require fun _ => Changes.outer (.scored _ (le_trans (by norm_num) hrange.1) hrange.2))
  | matchBest =>
    rw [exec_matchBest] at h; cases h
    refine Changes.gate (Changes.require fun _ => Changes.require fun _ => Changes.require fun _ =>
      Changes.require fun _ => ?_)
    cases hw : winner s.candidates with
    | none => exact Changes.raise s _ _
    | some w =>
      obtain ⟨hge, hle⟩ := winner_score_range hw
      exact Changes.outer (.best w hge hle)

/-! ## Register writes as changes -/

theorem CfgRegs.taps_le_iff (x : CfgRegs) : (∀ j, x.tap j ≤ 256) ↔ x.ktap0.toNat ≤ 256 ∧ x.ktap1.toNat ≤ 256 ∧
    x.ktap2.toNat ≤ 256 ∧ x.ktap3.toNat ≤ 256 ∧ x.ktap4.toNat ≤ 256 := by
  refine ⟨fun h => ⟨h 0, h 1, h 2, h 3, h 4⟩, ?_⟩
  rintro ⟨h0, h1, h2, h3, h4⟩ (_ | _ | _ | _ | _ | j)
  exacts [h0, h1, h2, h3, h4, Nat.zero_le _]

/-- A configuration that keeps the depth and is legal in its other fields keeps the registers legal. -/
theorem State.RegsOk.setCfg {s : State} (h : s.RegsOk) {x : CfgRegs} (hdepth : x.depth = s.cfg.depth)
    (hradius : x.radius ≤ 4) (htaps : ∀ j, x.tap j ≤ 256) (hpeaks : 1 ≤ x.maxpeaks.toNat ∧ x.maxpeaks.toNat ≤ 16) :
    (s.setCfg x).RegsOk where
  depth_ge := h.depth_ge.trans_eq (congrArg BitVec.toNat hdepth).symm
  depth_le := (congrArg BitVec.toNat hdepth).trans_le h.depth_le
  radius_le := hradius
  taps_le := htaps
  peaks_ge := hpeaks.1
  peaks_le := hpeaks.2
  hsel_ok := h.hsel_ok
  clsel_ok := h.clsel_ok

/-- Cutting a word to a field does not raise its value. -/
theorem toNat_setWidth_le {n b : Nat} {v : Word} (h : v.toNat ≤ b) : (v.setWidth n).toNat ≤ b := by
  rw [BitVec.toNat_setWidth]; exact (Nat.mod_le _ _).trans h

/-- A legal value of a configuration register keeps the registers legal (10_state R18). -/
theorem State.RegsOk.install_config {s : State} (h : s.RegsOk) {r : Reg} (hr : r ∈ configRegs) {v : Word}
    (hv : r.legal v = true) : (s.install r v).RegsOk := by
  have hpeaks := And.intro h.peaks_ge h.peaks_le
  have htap : decide (v.toNat ≤ 256) = true → (v.setWidth 9).toNat ≤ 256 := fun hle =>
    toNat_setWidth_le (of_decide_eq_true hle)
  obtain ⟨h0, h1, h2, h3, h4⟩ := (CfgRegs.taps_le_iff _).1 h.taps_le
  cases r
  case sradius => exact h.setCfg rfl (toNat_setWidth_le (of_decide_eq_true hv)) h.taps_le hpeaks
  case ktap0 => exact h.setCfg rfl h.radius_le ((CfgRegs.taps_le_iff _).2 ⟨htap hv, h1, h2, h3, h4⟩) hpeaks
  case ktap1 => exact h.setCfg rfl h.radius_le ((CfgRegs.taps_le_iff _).2 ⟨h0, htap hv, h2, h3, h4⟩) hpeaks
  case ktap2 => exact h.setCfg rfl h.radius_le ((CfgRegs.taps_le_iff _).2 ⟨h0, h1, htap hv, h3, h4⟩) hpeaks
  case ktap3 => exact h.setCfg rfl h.radius_le ((CfgRegs.taps_le_iff _).2 ⟨h0, h1, h2, htap hv, h4⟩) hpeaks
  case ktap4 => exact h.setCfg rfl h.radius_le ((CfgRegs.taps_le_iff _).2 ⟨h0, h1, h2, h3, htap hv⟩) hpeaks
  case maxpeaks =>
    simp only [Reg.legal, Bool.and_eq_true, decide_eq_true_eq] at hv
    have hfield : (v.setWidth 5).toNat = v.toNat := by rw [BitVec.toNat_setWidth, Nat.mod_eq_of_lt (by omega)]
    exact h.setCfg rfl h.radius_le h.taps_le (hfield.symm ▸ hv)
  case matchalg | pdsH | pdsC | pdsL | assetId => exact h.setCfg rfl h.radius_le h.taps_le hpeaks
  all_goals exact absurd hr (by decide)

/-- Installing a legal configuration value is a change. -/
theorem install_config_changes {r : Reg} (hr : r ∈ configRegs) (s : State) {v : Word} (hv : r.legal v = true) :
    Changes s (s.install r v) := by
  obtain ⟨heq, hdepth⟩ := install_config r hr s v
  have hlegal : s.RegsOk → (s.install r v).RegsOk := fun h => h.install_config hr hv
  rw [heq] at hlegal ⊢
  exact Changes.outer (.config _ hdepth hlegal)

/-- A write of `DEPTH` is a change, a fault, or nothing (10_state R19). -/
theorem writeDepth_changes (s : State) {v : Word} (hv : Reg.depth.legal v = true) : Changes s (s.writeDepth v) := by
  rcases writeDepth_cases s v with ⟨_, h⟩ | ⟨_, _, h⟩ | ⟨_, hfree, h⟩ <;> rw [h]
  · exact Changes.raise s _ _
  · exact Changes.tile (.depth v hv hfree)

/-- Window registers of legal values keep the registers legal (10_state R20). -/
theorem State.RegsOk.setWin {s : State} (h : s.RegsOk) {x : WinRegs} (hhsel : hselLegal x.hsel = true)
    (hclsel : clselLegal x.clsel = true) : (s.setWin x).RegsOk :=
  ⟨h.depth_ge, h.depth_le, h.radius_le, h.taps_le, h.peaks_ge, h.peaks_le, hhsel, hclsel⟩

/-- Installing a legal value is a sequence of changes. -/
theorem install_changes (s : State) {r : Reg} {v : Word} (hv : r.legal v = true) : Changes s (s.install r v) := by
  cases r
  case pixpush => exact (Changes.outer (.operand { s.data with pixin := v } rfl rfl rfl)).trans (Changes.accumulate _)
  case pixin | hclH | hclC | hclL => exact Changes.outer (.operand _ rfl rfl rfl)
  case depth => exact writeDepth_changes s hv
  case sradius | ktap0 | ktap1 | ktap2 | ktap3 | ktap4 | matchalg | maxpeaks | pdsH | pdsC | pdsL | assetId =>
    exact install_config_changes (by decide) s hv
  case hsel => exact Changes.outer (.window _ fun h => h.setWin hv h.clsel_ok)
  case haddr => exact Changes.outer (.window _ fun h => h.setWin h.hsel_ok h.clsel_ok)
  case clsel => exact Changes.outer (.window _ fun h => h.setWin h.hsel_ok hv)
  all_goals exact .refl

/-- A register write is a sequence of changes, whatever the value. -/
theorem writeReg_changes (s : State) (r : Reg) (v : Word) : Changes s (s.writeReg r v) := by
  rcases writeReg_cases s r v with ⟨_, h⟩ | ⟨_, _, h⟩ | ⟨_, hlegal, h⟩ <;> rw [h]
  · exact Changes.raise s _ _
  · exact Changes.raise s _ _
  · exact install_changes s hlegal

/-! ## Decoded words -/

/-- A word is its three fields (30_encoding R60). -/
theorem word_eq_fields (w : Word) : opcField w ++ (rsvField w ++ argField w) = w := by
  apply BitVec.eq_of_getLsbD_eq
  intro i hi
  simp only [opcField, rsvField, argField, BitVec.getLsbD_append, BitVec.getLsbD_extractLsb']
  split_ifs with hlow hmid
  · rw [decide_eq_true hmid, Bool.true_and, Nat.zero_add]
  · rw [decide_eq_true (by omega), Bool.true_and, Nat.add_sub_cancel' (by omega)]
  · rw [decide_eq_true (by omega), Bool.true_and, Nat.add_sub_cancel' (by omega)]

/-- A command found by its opcode in format `C0` has that opcode and no operand. -/
theorem fields_of_c0Command {opc : BitVec 8} {i : Instr} (h : c0Command opc = some i) :
    i.opcode = opc ∧ i.arg = 0#16 := by
  unfold c0Command at h
  split at h <;> cases h <;> exact ⟨BitVec.eq_of_toNat_eq (Eq.symm ‹_›), rfl⟩

/-- A command found by its opcode in format `CS` has that opcode and the slot operand. -/
theorem fields_of_csCommand {opc : BitVec 8} {slot : BitVec 16} {i : Instr} (h : csCommand opc slot = some i) :
    i.opcode = opc ∧ i.arg = slot := by
  unfold csCommand at h
  split at h <;> cases h <;> exact ⟨BitVec.eq_of_toNat_eq (Eq.symm ‹_›), rfl⟩

/-- A word that decodes to a command is that command's word (30_encoding R62, R64). -/
theorem encode_of_decode {w : Word} {i : Instr} (h : decode w = .ok i) : encode i = w := by
  have hfields : i.opcode = opcField w ∧ rsvField w = 0#8 ∧ i.arg = argField w := by
    unfold decode at h
    split at h
    · next hcs =>
      split at h <;> cases h
      obtain ⟨hopc, harg⟩ := fields_of_csCommand hcs
      exact ⟨hopc, ‹_›, harg⟩
    · split at h
      · next hc0 =>
        split at h <;> cases h
        next hzero =>
        obtain ⟨hopc, harg⟩ := fields_of_c0Command hc0
        exact ⟨hopc, hzero.1, harg.trans hzero.2.symm⟩
      · cases h
  obtain ⟨hopc, hrsv, harg⟩ := hfields
  rw [encode, hopc, harg, ← hrsv, word_eq_fields]

/-! ## Accesses and steps -/

/-- An access that answers a next state is 32 bits wide (20_memory R43). -/
theorem width_of_access {s t : State} {a : Access} (h : s.access a = .next t) : a.width = .word := by
  unfold State.access at h
  split at h
  · cases h
  · next hnone =>
    by_contra hwidth
    rw [Access.refusal, if_pos hwidth] at hnone
    cases hnone

/-- What an access does, in changes: `SRESET`, which only its word written to `CMD` runs, or a sequence of changes. -/
theorem access_changes {s t : State} {a : Access} (h : s.access a = .next t) :
    (a.isSreset ∧ t = s.toReset) ∨ Changes s t := by
  have hwidth := width_of_access h
  rcases access_cases h with ⟨w, off, rfl, rfl⟩ | ⟨w, v, i, rfl, hdecode, hexec⟩ | ⟨w, v, e, rfl, -, rfl⟩ |
    ⟨w, r, v, rfl, -, rfl⟩ | ⟨w, off, v, rfl, -, rfl⟩
  · exact .inr (Changes.outer (.host s.pending _))
  · by_cases hi : i = .sreset
    · subst hi
      rw [exec_sreset] at hexec
      cases hexec
      have hw : w = .word := hwidth
      have hv : v = 0x01000000#32 := (encode_of_decode hdecode).symm
      exact .inl ⟨by rw [hw, hv, Access.isSreset], rfl⟩
    · exact .inr (exec_changes hi hexec)
  · exact .inr (Changes.gate (Changes.raise s _ _))
  · exact .inr (Changes.gate (writeReg_changes s r v))
  · exact .inr (Changes.gate (Changes.raise s _ _))

/-- What a step does, in changes. -/
theorem step_changes {s t : State} (h : step s = .next t) :
    (∃ rest, s.pending = .wr .word 0x04 0x01000000#32 :: rest ∧ t = (s.setPending rest).toReset) ∨ Changes s t := by
  rcases step_cases h with ⟨-, rfl⟩ | ⟨a, rest, hpending, haccess⟩
  · exact .inr .refl
  · rcases access_changes haccess with ⟨rfl, rfl⟩ | hchanges
    · exact .inl ⟨rest, hpending, rfl⟩
    · exact .inr (.trans (Changes.outer (.host rest s.rdata)) hchanges)

/-- A predicate that holds at reset and that every change keeps is kept by every step. -/
theorem step_keeps {p : State → Prop} (hreset : ∀ n, p (State.resetWith n)) (hchange : ∀ s t, Change s t → p s → p t)
    {s t : State} (hs : p s) (h : step s = .next t) : p t := by
  rcases step_changes h with ⟨rest, -, rfl⟩ | hchanges
  · exact hchange _ _ (.inl (.host rest s.rdata)) (hreset s.nslotPred)
  · exact hchanges.keeps hchange hs

/-- Such a predicate holds in every reachable state. -/
theorem reachable_keeps {p : State → Prop} (hreset : ∀ n, p (State.resetWith n))
    (hchange : ∀ s t, Change s t → p s → p t) {s : State} (h : Reachable s) : p s := by
  induction h with
  | reset n => exact hreset n
  | issue s as _ ih => exact hchange _ _ (.inl (.host as s.rdata)) ih
  | step s t _ hstep ih => exact step_keeps hreset hchange ih hstep

/-! ## Sticky flags -/

/-- Every sticky flag that is set in `x` is set in `y`. -/
structure Status.KeepsSticky (x y : Status) : Prop where
  err : x.err = true → y.err = true
  sealed : x.sealed = true → y.sealed = true
  bestValid : x.bestValid = true → y.bestValid = true

/-- No change clears `ERR`, `SEALED` or `BEST_VALID` (10_state R13). -/
theorem Change.keepsSticky {s t : State} (h : Change s t) : s.status.KeepsSticky t.status := by
  rcases h with h | h
  · cases h with
    | fault => exact ⟨fun _ => rfl, id, id⟩
    | best => exact ⟨id, id, fun _ => rfl⟩
    | sealed => exact ⟨id, fun _ => rfl, id⟩
    | host | operand | reduced | scored | config | window => exact ⟨id, id, id⟩
  · cases h <;> exact ⟨id, id, id⟩

/-- Settles O52: a sequence of changes keeps each flag, so only `SRESET` is left. -/
theorem onlySresetClearsStickyFlags : Obligations.OnlySresetClearsStickyFlags := by
  intro s t hstep hcleared
  rcases step_changes hstep with ⟨rest, hpending, -⟩ | hchanges
  · exact ⟨rest, hpending⟩
  · have herr := hchanges.keeps (p := fun u => u.status.err = true) fun _ _ h => h.keepsSticky.err
    have hsealed := hchanges.keeps (p := fun u => u.status.sealed = true) fun _ _ h => h.keepsSticky.sealed
    have hbest := hchanges.keeps (p := fun u => u.status.bestValid = true) fun _ _ h => h.keepsSticky.bestValid
    rcases hcleared with ⟨h, h'⟩ | ⟨h, h'⟩ | ⟨h, h'⟩
    · rw [herr h] at h'; cases h'
    · rw [hsealed h] at h'; cases h'
    · rw [hbest h] at h'; cases h'

/-! ## Slots -/

/-- Only `A.COMMIT` writes a slot, and only while `SEALED = 0` (45_assets_match R170). -/
theorem Change.slots_of_sealed {s t : State} (h : Change s t) (hsealed : s.status.sealed = true) : t.slots = s.slots := by
  rcases h with h | h
  · cases h <;> rfl
  · cases h with
    | committed k hopen => rw [hsealed] at hopen; cases hopen
    | depth | cleared | counted | smoothed | extracted => rfl

/-- Counting a pixel leaves the slots. -/
theorem accumulate_slots (s : State) : s.accumulate.slots = s.slots := by
  rcases s.accumulate_cases with ⟨_, h⟩ | ⟨_, _, h⟩ | ⟨_, _, h⟩ <;> rw [h]
  · exact State.raise_slots _ _ _
  · exact State.raise_slots _ _ _
  · exact State.count_slots _ _

/-- A register write leaves the slots. -/
theorem writeReg_slots (s : State) (r : Reg) (v : Word) : (s.writeReg r v).slots = s.slots := by
  have hinstall : (s.install r v).slots = s.slots := by
    cases r
    case pixpush => exact accumulate_slots _
    case depth =>
      rcases writeDepth_cases s v with ⟨_, h⟩ | ⟨_, _, h⟩ | ⟨_, _, h⟩ <;> rw [State.install, h]
      · exact State.raise_slots _ _ _
      · rfl
    all_goals rfl
  rcases writeReg_cases s r v with ⟨_, h⟩ | ⟨_, _, h⟩ | ⟨_, _, h⟩ <;> rw [h]
  · exact State.raise_slots _ _ _
  · exact State.raise_slots _ _ _
  · exact hinstall

/-- The gate keeps the slots when the effect behind it does. -/
theorem gate_slots {s e : State} (h : e.slots = s.slots) : (s.gate e).slots = s.slots := by
  cases herr : s.status.err with
  | false => rw [State.gate_of_clear herr, h]
  | true => rw [State.gate_of_err herr]

/-- An access that is no write of `CMD` leaves the slots (10_state R25). -/
theorem access_slots {s t : State} {a : Access} (h : s.access a = .next t) (ha : ∀ v, a ≠ .wr .word 0x04 v) :
    t.slots = s.slots := by
  have hwidth := width_of_access h
  rcases access_cases h with ⟨w, off, rfl, rfl⟩ | ⟨w, v, i, rfl, -, -⟩ | ⟨w, v, e, rfl, -, -⟩ |
    ⟨w, r, v, rfl, -, rfl⟩ | ⟨w, off, v, rfl, -, rfl⟩
  · rfl
  · exact absurd (congrArg (Access.wr · 0x04 v) hwidth) (ha v)
  · exact absurd (congrArg (Access.wr · 0x04 v) hwidth) (ha v)
  · exact gate_slots (writeReg_slots s r v)
  · exact gate_slots (State.raise_slots s _ _)

/-- Settles O53: while `SEALED = 1` every change leaves the slots and the flag; and without a `CMD` write no access touches
them. -/
theorem sealedSlotsAreFrozen : Obligations.SealedSlotsAreFrozen := by
  intro s t hstep
  refine ⟨fun hsealed => ?_, fun hno => ?_⟩
  · rcases step_changes hstep with ⟨rest, hpending, -⟩ | hchanges
    · exact .inr ⟨rest, hpending⟩
    · exact .inl (hchanges.keeps (p := fun u => u.status.sealed = true ∧ u.slots = s.slots)
        (fun _ _ h hu => ⟨h.keepsSticky.sealed hu.1, (h.slots_of_sealed hu.1).trans hu.2⟩) ⟨hsealed, rfl⟩).2
  · rcases step_cases hstep with ⟨-, rfl⟩ | ⟨a, rest, hpending, haccess⟩
    · rfl
    · exact access_slots (s := s.setPending rest) haccess fun v ha => hno v rest (ha ▸ hpending)

end Sys2Proof.Machine
end

section
/-! Sums over the cells of a memory: what a write and a replacement do to the total, and that smoothing multiplies it by the
cube of the kernel's sum (42_histogram R124, R129). -/

namespace Sys2Proof.Machine

/-! ## Totals -/

theorem Sparse.total_eq_sum {w : Nat} (n : Nat) (m : Sparse (BitVec w)) :
    Sparse.total n m = ∑ i ∈ Finset.range n, (Sparse.read 0#w m i).toNat := rfl

/-- The total depends on the cells below the bound only. -/
theorem Sparse.total_congr {w n : Nat} {a b : Sparse (BitVec w)}
    (h : ∀ i < n, Sparse.read 0#w a i = Sparse.read 0#w b i) : Sparse.total n a = Sparse.total n b := by
  rw [Sparse.total_eq_sum, Sparse.total_eq_sum]
  exact Finset.sum_congr rfl fun i hi => by rw [h i (Finset.mem_range.1 hi)]

@[simp] theorem Sparse.total_nil (w n : Nat) : Sparse.total n ([] : Sparse (BitVec w)) = 0 := by
  rw [Sparse.total_eq_sum]
  exact Finset.sum_eq_zero fun _ _ => rfl

/-- A memory whose cells below the bound are replaced has the total of the source. -/
theorem Sparse.total_replaceBelow {w : Nat} (n : Nat) (src dst : Sparse (BitVec w)) :
    Sparse.total n (Sparse.replaceBelow n src dst) = Sparse.total n src :=
  Sparse.total_congr fun i hi => by rw [Sparse.read_replaceBelow, if_pos hi]

/-- No cell exceeds the total. -/
theorem Sparse.read_le_total {w n i : Nat} (m : Sparse (BitVec w)) (hi : i < n) :
    (Sparse.read 0#w m i).toNat ≤ Sparse.total n m :=
  Finset.single_le_sum (f := fun j => (Sparse.read 0#w m j).toNat) (fun _ _ => Nat.zero_le _) (Finset.mem_range.2 hi)

/-- Adding one to a cell that has room adds one to the total. -/
theorem Sparse.total_write_succ {w n i : Nat} {m : Sparse (BitVec w)} (hm : Sparse.wf 0#w m = true) (hi : i < n)
    (hroom : (Sparse.read 0#w m i).toNat + 1 < 2 ^ w) :
    Sparse.total n (Sparse.write 0#w m i (Sparse.read 0#w m i + 1#w)) = Sparse.total n m + 1 := by
  have hcell : (Sparse.read 0#w m i + 1#w).toNat = (Sparse.read 0#w m i).toNat + 1 := by
    rw [BitVec.toNat_add, BitVec.toNat_ofNat, Nat.add_mod_mod, Nat.mod_eq_of_lt hroom]
  have hread : ∀ j, (Sparse.read 0#w (Sparse.write 0#w m i (Sparse.read 0#w m i + 1#w)) j).toNat =
      (Sparse.read 0#w m j).toNat + if j = i then 1 else 0 := by
    intro j
    rw [Sparse.read_write_wf hm]
    split
    · next hji => rw [hcell, hji]
    · rfl
  rw [Sparse.total_eq_sum, Finset.sum_congr rfl fun j _ => hread j, Finset.sum_add_distrib, Finset.sum_ite_eq',
    if_pos (Finset.mem_range.2 hi), ← Sparse.total_eq_sum]

/-- The total is the sum of the listed cells below the bound. -/
theorem Sparse.sum_listed {w : Nat} (n : Nat) : ∀ {lo : Nat} {m : Sparse (BitVec w)}, Sparse.rising lo m = true →
    ((m.filter fun e => decide (e.1 < n)).map fun e => e.2.toNat).sum = Sparse.total n m
  | _, [], _ => (Sparse.total_nil w n).symm
  | lo, (k, v) :: m, hm => by
    simp only [Sparse.rising, Bool.and_eq_true] at hm
    have ih := Sparse.sum_listed n hm.2
    have hread : ∀ i, (Sparse.read 0#w ((k, v) :: m) i).toNat =
        (Sparse.read 0#w m i).toNat + if i = k then v.toNat else 0 := by
      intro i
      rw [Sparse.read]
      split
      · next hik => rw [hik, Sparse.read_below hm.2 (Nat.lt_succ_self k), BitVec.toNat_zero, Nat.zero_add]
      · rfl
    rw [Sparse.total_eq_sum, Finset.sum_congr rfl fun i _ => hread i, Finset.sum_add_distrib, Finset.sum_ite_eq',
      ← Sparse.total_eq_sum, ← ih]
    by_cases hk : k < n <;> simp [hk, Nat.add_comm]

/-! ## Sums over cells -/

/-- A sum over a product range is a double sum over quotient and remainder. -/
theorem sum_range_mul_divMod (a b : Nat) (f : Nat → Nat → Nat) :
    ∑ j ∈ Finset.range (a * b), f (j / b) (j % b) = ∑ x ∈ Finset.range a, ∑ y ∈ Finset.range b, f x y := by
  induction a with
  | zero => simp
  | succ a ih =>
    rw [Nat.succ_mul, Finset.sum_range_add, ih, Finset.sum_range_succ]
    congr 1
    refine Finset.sum_congr rfl fun y hy => ?_
    have hlt := Finset.mem_range.1 hy
    rw [Nat.mul_comm, Nat.mul_add_div (by omega), Nat.div_eq_of_lt hlt, Nat.mul_add_mod, Nat.mod_eq_of_lt hlt, Nat.add_zero]

/-- A sum over all cells of a product of one factor per axis is the product of the axes' sums. -/
theorem sum_cellTriple (d : Nat) (f g h : Nat → Nat) :
    ∑ j ∈ Finset.range (d * d * d), f (cellTriple d j).1 * g (cellTriple d j).2.1 * h (cellTriple d j).2.2 =
      (∑ x ∈ Finset.range d, f x) * (∑ x ∈ Finset.range d, g x) * ∑ x ∈ Finset.range d, h x := by
  rw [Finset.sum_mul_sum, ← sum_range_mul_divMod d d fun x y => f x * g y, Finset.sum_mul_sum,
    ← sum_range_mul_divMod (d * d) d fun x y => f (x / d) * g (x % d) * h y]
  rfl

/-- A finite sum of the sums of a list, in the other order. -/
theorem sum_range_sum_map {ι : Type} (n : Nat) (f : ι → Nat → Nat) (l : List ι) :
    ∑ j ∈ Finset.range n, (l.map fun e => f e j).sum = (l.map fun e => ∑ j ∈ Finset.range n, f e j).sum := by
  induction l with
  | nil => simp
  | cons e l ih => simp only [List.map_cons, List.sum_cons, Finset.sum_add_distrib, ih]

/-! ## The kernel -/

/-- The offsets are the numbers `k - R` for `k` up to `2R` (42_histogram R125). -/
theorem kernelOffsets_eq (r : Nat) : kernelOffsets r = (List.range (2 * r + 1)).map fun k => ((k : Nat) : Int) - r := by
  simp [kernelOffsets, ← List.map_eq_flatMap]

/-- The offsets `-R` to `R` take each distance above 0 twice (42_histogram R128). -/
theorem sum_kernelOffsets (f : Nat → Nat) (r : Nat) :
    ((kernelOffsets r).map fun o => f o.natAbs).sum = f 0 + 2 * ((List.range r).map fun j => f (j + 1)).sum := by
  have hlist : ((kernelOffsets r).map fun o => f o.natAbs).sum =
      ∑ k ∈ Finset.range (r + (r + 1)), f ((k : Int) - r).natAbs := by
    rw [kernelOffsets_eq, List.map_map, show 2 * r + 1 = r + (r + 1) by omega]
    rfl
  have hbelow : ∑ k ∈ Finset.range r, f ((k : Int) - r).natAbs = ∑ j ∈ Finset.range r, f (j + 1) := by
    rw [← Finset.sum_range_reflect]
    refine Finset.sum_congr rfl fun j hj => congrArg f ?_
    have := Finset.mem_range.1 hj
    omega
  have habove : ∑ k ∈ Finset.range (r + 1), f (((r + k : Nat) : Int) - r).natAbs =
      ∑ j ∈ Finset.range r, f (j + 1) + f 0 := by
    rw [← Finset.sum_range_succ']
    exact Finset.sum_congr rfl fun k _ => congrArg f (by omega)
  have hright : ((List.range r).map fun j => f (j + 1)).sum = ∑ j ∈ Finset.range r, f (j + 1) := rfl
  rw [hlist, Finset.sum_range_add, hbelow, habove, hright]
  omega

/-- Along one axis the weights out of a source add up to the kernel's sum, wherever the destinations lie (42_histogram
R125, R129). -/
theorem sum_axisWeight (k : CfgRegs) {dest : Int → Int → Int} {d x : Nat}
    (hdest : ∀ o, 0 ≤ dest x o ∧ dest x o < d) : ∑ x2 ∈ Finset.range d, axisWeight k dest x x2 = k.tapSum := by
  have hone : ∀ o : Int, (∑ x2 ∈ Finset.range d, if dest x o = (x2 : Int) then k.tap o.natAbs else 0) =
      k.tap o.natAbs := by
    intro o
    obtain ⟨hge, hlt⟩ := hdest o
    obtain ⟨n, hn⟩ := Int.eq_ofNat_of_zero_le hge
    simp only [hn, Nat.cast_inj, Finset.sum_ite_eq]
    exact if_pos (Finset.mem_range.2 (by omega))
  simp only [axisWeight]
  rw [sum_range_sum_map d fun o x2 => if dest x o = (x2 : Int) then k.tap o.natAbs else 0]
  simp only [hone]
  exact sum_kernelOffsets k.tap k.radius

/-- The weights out of a cell add up to the cube of the kernel's sum (42_histogram R129). -/
theorem sum_cellWeight (k : CfgRegs) {d : Nat} (hd : 0 < d) (i : Nat) :
    ∑ j ∈ Finset.range (d * d * d), cellWeight k d i j = k.tapSum ^ 3 := by
  have hcirc : ∀ x, ∑ x2 ∈ Finset.range d, weightH k d x x2 = k.tapSum := fun x =>
    sum_axisWeight k fun o => fmod_bounds (by omega) _
  have hclamp : ∀ x, ∑ x2 ∈ Finset.range d, weightCL k d x x2 = k.tapSum := fun x =>
    sum_axisWeight k fun o => by
      have hbounds := clamp_bounds (show (0 : Int) ≤ (d : Int) - 1 by omega) ((x : Int) + o)
      rw [destClamp]
      omega
  simp only [cellWeight]
  rw [sum_cellTriple d (weightH k d _) (weightCL k d _) (weightCL k d _), hcirc, hclamp, hclamp]
  ring

/-- Smoothing multiplies the total by the cube of the kernel's sum (42_histogram R129). -/
theorem sum_smoothCell (k : CfgRegs) {d : Nat} (hd : 0 < d) {h : Sparse (BitVec 24)} (hwf : Sparse.wf 0#24 h = true) :
    ∑ j ∈ Finset.range (d * d * d), smoothCell k d h j = Sparse.total (d * d * d) h * k.tapSum ^ 3 := by
  simp only [smoothCell]
  rw [sum_range_sum_map (d * d * d) fun (e : Nat × BitVec 24) j => e.2.toNat * cellWeight k d e.1 j]
  simp only [← Finset.mul_sum, sum_cellWeight k hd]
  rw [List.sum_map_mul_right, Sparse.sum_listed (d * d * d) (Sparse.wf_iff.1 hwf).1]

/-- With a kernel of sum 256 and counts that fit their 24 bits, `S` holds the exact sums and adds up to the pixel count times
`2^24`: no cell overflows (42_histogram R129). -/
theorem total_smoothed {k : CfgRegs} {d : Nat} (hd : 0 < d) {h : Sparse (BitVec 24)} (hwf : Sparse.wf 0#24 h = true)
    (htaps : k.tapSum = Config.tapOne) (hcount : Sparse.total (d * d * d) h < 2 ^ 24) :
    Sparse.total (d * d * d) (smoothed k d h) = Sparse.total (d * d * d) h * 2 ^ 24 := by
  have hsum : ∑ j ∈ Finset.range (d * d * d), smoothCell k d h j = Sparse.total (d * d * d) h * 2 ^ 24 := by
    rw [sum_smoothCell k hd hwf, htaps]
    rfl
  rw [Sparse.total_eq_sum, ← hsum]
  refine Finset.sum_congr rfl fun j hj => ?_
  have hle := Finset.single_le_sum (f := smoothCell k d h) (fun _ _ => Nat.zero_le _) hj
  rw [smoothed, Sparse.read_ofFn, if_pos (Finset.mem_range.1 hj), BitVec.toNat_ofNat, Nat.mod_eq_of_lt (by omega)]

end Sys2Proof.Machine
end

section
/-! The invariants of the CME: each holds at reset and is kept by every primitive change, so by every step and in every
reachable state (10_state R16 to R26; 42_histogram R124, R129). -/

namespace Sys2Proof.Machine

/-! ## What an outer change leaves alone -/

/-- `t` has the tile, the depth and the asset store of `s`. -/
structure State.SameTile (s t : State) : Prop where
  hInit : t.status.hInit = s.status.hInit
  sValid : t.status.sValid = s.status.sValid
  pkValid : t.status.pkValid = s.status.pkValid
  depth : t.cfg.depth = s.cfg.depth
  pixcnt : t.pixcnt = s.pixcnt
  h : t.h = s.h
  smooth : t.smooth = s.smooth
  tcl : t.tcl = s.tcl
  slots : t.slots = s.slots
  nslotPred : t.nslotPred = s.nslotPred

section SameTile

variable {s t : State}

theorem State.SameTile.d (e : s.SameTile t) : t.d = s.d := congrArg BitVec.toNat e.depth

theorem State.SameTile.ncell (e : s.SameTile t) : t.ncell = s.ncell := by rw [State.ncell, e.d, State.ncell]

theorem State.SameTile.nslot (e : s.SameTile t) : t.nslot = s.nslot := by rw [State.nslot, e.nslotPred, State.nslot]

theorem State.SameTile.slotAt (e : s.SameTile t) (k : Nat) : t.slotAt k = s.slotAt k := by
  rw [State.slotAt, e.slots, State.slotAt]

theorem State.SameTile.slotValid (e : s.SameTile t) (k : Nat) : t.slotValid k = s.slotValid k := by
  rw [State.slotValid, e.nslot, e.slotAt, State.slotValid]

/-- The outer changes are outside the tile and the store. -/
theorem OuterChange.sameTile (h : OuterChange s t) : s.SameTile t := by
  cases h with
  | config x hdepth => exact ⟨rfl, rfl, rfl, hdepth, rfl, rfl, rfl, rfl, rfl, rfl⟩
  | host | fault | operand | reduced | scored | best | window | sealed =>
    exact ⟨rfl, rfl, rfl, rfl, rfl, rfl, rfl, rfl, rfl, rfl⟩

/-- The tile changes are outside the data and window registers and the fault record. -/
theorem TileChange.frame (h : TileChange s t) : t.data = s.data ∧ t.win = s.win ∧
    t.status.err = s.status.err ∧ t.status.errCode = s.status.errCode ∧ t.status.errInfo = s.status.errInfo := by
  cases h <;> exact ⟨rfl, rfl, rfl, rfl, rfl⟩

end SameTile

/-! ## Registers and memories (10_state R18, R20, R22 to R25) -/

theorem resetWith_regsOk (n : Fin 65536) : (State.resetWith n).RegsOk where
  depth_ge := (by decide : 2 ≤ 16)
  depth_le := (by decide : 16 ≤ 32)
  radius_le := (by decide : 1 ≤ 4)
  taps_le := (CfgRegs.taps_le_iff CfgRegs.reset).2 (by decide)
  peaks_ge := (by decide : 1 ≤ 8)
  peaks_le := (by decide : 8 ≤ 16)
  hsel_ok := (by decide : hselLegal 0#32 = true)
  clsel_ok := (by decide : clselLegal 0#32 = true)

theorem resetWith_memOk (n : Fin 65536) : (State.resetWith n).MemOk where
  h_wf := rfl
  s_wf := rfl
  slots_wf := rfl
  slots_lt := fun _ he => absurd he List.not_mem_nil
  cells_wf := fun _ => rfl
  tcl_le := Nat.zero_le _
  cl_le := fun _ => Nat.zero_le _

/-- Legality speaks of the configuration and window registers only. -/
theorem State.RegsOk.of_eq {s t : State} (h : s.RegsOk) (hcfg : t.cfg = s.cfg) (hwin : t.win = s.win) : t.RegsOk where
  depth_ge := by rw [State.d, hcfg]; exact h.depth_ge
  depth_le := by rw [State.d, hcfg]; exact h.depth_le
  radius_le := hcfg ▸ h.radius_le
  taps_le := hcfg ▸ h.taps_le
  peaks_ge := hcfg ▸ h.peaks_ge
  peaks_le := hcfg ▸ h.peaks_le
  hsel_ok := hwin ▸ h.hsel_ok
  clsel_ok := hwin ▸ h.clsel_ok

theorem Change.regsOk {s t : State} (h : Change s t) (hs : s.RegsOk) : t.RegsOk := by
  rcases h with h | h
  · cases h with
    | config _ _ hlegal => exact hlegal hs
    | window _ hlegal => exact hlegal hs
    | host | fault | operand | reduced | scored | best | sealed => exact hs.of_eq rfl rfl
  · cases h with
    | depth v hlegal =>
      have hrange := (legal_depth_iff v).1 hlegal
      rw [← toNat_setWidth_depth hlegal] at hrange
      exact ⟨hrange.1, hrange.2, hs.radius_le, hs.taps_le, hs.peaks_ge, hs.peaks_le, hs.hsel_ok, hs.clsel_ok⟩
    | cleared | counted | smoothed | extracted | committed => exact hs.of_eq rfl rfl

/-- The canonical form of the memories does not depend on what an outer change writes. -/
theorem State.MemOk.of_sameTile {s t : State} (h : s.MemOk) (e : s.SameTile t) : t.MemOk where
  h_wf := e.h ▸ h.h_wf
  s_wf := e.smooth ▸ h.s_wf
  slots_wf := e.slots ▸ h.slots_wf
  slots_lt := by rw [e.slots, e.nslot]; exact h.slots_lt
  cells_wf := fun k => e.slotAt k ▸ h.cells_wf k
  tcl_le := e.tcl ▸ h.tcl_le
  cl_le := fun k => e.slotAt k ▸ h.cl_le k

theorem peaks_length_le (m : Sparse (BitVec 48)) (d maxPeaks : Nat) : (peaks m d maxPeaks).length ≤ maxPeaks := by
  rw [peaks, List.length_map]
  exact List.length_take_le _ _

/-- What holds of every slot, and of the one a commit writes, holds of every slot after it. -/
theorem State.forall_slotAt_committed {s : State} (hwf : Sparse.wf Slot.empty s.slots = true) (k : Nat)
    {p : Nat → Slot → Prop} (hnew : p k (s.committed (s.slotAt k))) (hold : ∀ j, p j (s.slotAt j)) (j : Nat) :
    p j ((s.setSlot k (s.committed (s.slotAt k))).slotAt j) := by
  rw [State.slotAt_setSlot hwf]
  split
  · next hjk => exact hjk ▸ hnew
  · exact hold j

/-- A commit keeps the memories canonical (45_assets_match R170). -/
theorem State.MemOk.setSlot_committed {s : State} (h : s.MemOk) {k : Nat} (hk : k < s.nslot) :
    (s.setSlot k (s.committed (s.slotAt k))).MemOk where
  h_wf := h.h_wf
  s_wf := h.s_wf
  slots_wf := Sparse.wf_write h.slots_wf _ _
  slots_lt := fun e he => by
    rcases Sparse.mem_write he with hmem | ⟨rfl, -⟩
    · exact h.slots_lt e hmem
    · exact hk
  cells_wf := State.forall_slotAt_committed h.slots_wf k (p := fun _ x => Sparse.wf 0#48 x.cells = true)
    (Sparse.wf_replaceBelow h.s_wf (h.cells_wf k)) h.cells_wf
  tcl_le := h.tcl_le
  cl_le := State.forall_slotAt_committed h.slots_wf k (p := fun _ x => x.cl.length ≤ 16)
    (by
      show (if s.status.pkValid then s.tcl else (s.slotAt k).cl).length ≤ 16
      split
      · exact h.tcl_le
      · exact h.cl_le k) h.cl_le

theorem Change.memOk {s t : State} (h : Change s t) (hr : s.RegsOk) (hm : s.MemOk) : t.MemOk := by
  rcases h with h | h
  · exact hm.of_sameTile h.sameTile
  · cases h with
    | depth => exact { hm with }
    | cleared => exact { hm with h_wf := Sparse.wf_replaceBelow rfl hm.h_wf }
    | counted => exact { hm with h_wf := Sparse.wf_write hm.h_wf _ _ }
    | smoothed => exact { hm with s_wf := Sparse.wf_replaceBelow (Sparse.wf_ofFn _ _ _) hm.s_wf }
    | extracted => exact { hm with tcl_le := (peaks_length_le _ _ _).trans hr.peaks_le }
    | committed k _ hk => exact hm.setSlot_committed hk

/-- Settles O55: both invariants hold at reset and every change keeps them. -/
theorem stepKeepsRegistersAndMemories : Obligations.StepKeepsRegistersAndMemories := fun _ _ hr hm =>
  step_keeps (p := fun u => u.RegsOk ∧ u.MemOk) (fun n => ⟨resetWith_regsOk n, resetWith_memOk n⟩)
    (fun _ _ h hu => ⟨h.regsOk hu.1, h.memOk hu.1 hu.2⟩) ⟨hr, hm⟩

/-! ## The valid flags (10_state R26) -/

theorem resetWith_flagsOk (n : Fin 65536) : (State.resetWith n).FlagsOk where
  pk_s := nofun
  s_h := nofun
  h_cnt := fun _ => rfl
  slot_pk := fun _ => nofun

theorem State.FlagsOk.of_sameTile {s t : State} (h : s.FlagsOk) (e : s.SameTile t) : t.FlagsOk where
  pk_s := by rw [e.pkValid, e.sValid]; exact h.pk_s
  s_h := by rw [e.sValid, e.hInit]; exact h.s_h
  h_cnt := by rw [e.hInit, e.pixcnt]; exact h.h_cnt
  slot_pk := fun k => by rw [e.slotAt]; exact h.slot_pk k

/-- While nothing locks `DEPTH` there is no count, no smoothed tile and no valid slot (10_state R19). -/
theorem State.free_of_not_locked {s : State} (hwf : Sparse.wf Slot.empty s.slots = true) (hfree : s.locked = false) :
    s.pixcnt = 0#24 ∧ s.status.sValid = false ∧ ∀ k, s.slotValid k = false := by
  have hnot := mt (State.locked_iff hwf).2 (by rw [hfree]; exact Bool.false_ne_true)
  push Not at hnot
  obtain ⟨hcount, hvalid, hslots⟩ := hnot
  refine ⟨hcount, Bool.eq_false_iff.2 hvalid, fun k => Bool.eq_false_iff.2 fun hk => ?_⟩
  rw [State.slotValid, Bool.and_eq_true, decide_eq_true_eq] at hk
  exact hslots k hk.1 hk.2

theorem Change.slots_wf {s t : State} (h : Change s t) (hwf : Sparse.wf Slot.empty s.slots = true) :
    Sparse.wf Slot.empty t.slots = true := by
  rcases h with h | h
  · exact h.sameTile.slots ▸ hwf
  · cases h with
    | committed => exact Sparse.wf_write hwf _ _
    | depth | cleared | counted | smoothed | extracted => exact hwf

theorem Change.flagsOk {s t : State} (h : Change s t) (hwf : Sparse.wf Slot.empty s.slots = true) (hf : s.FlagsOk) :
    t.FlagsOk := by
  rcases h with h | h
  · exact hf.of_sameTile h.sameTile
  · cases h with
    | depth v _ hfree =>
      obtain ⟨hcount, hvalid, -⟩ := State.free_of_not_locked hwf hfree
      exact ⟨hf.pk_s, fun h => absurd h (Bool.eq_false_iff.1 hvalid), fun _ => hcount, hf.slot_pk⟩
    | cleared => exact ⟨nofun, nofun, fun _ => rfl, hf.slot_pk⟩
    | counted hinit =>
      exact ⟨nofun, nofun, fun h => absurd hinit (Bool.eq_false_iff.1 h), hf.slot_pk⟩
    | smoothed hinit =>
      exact ⟨nofun, fun _ => hinit, hf.h_cnt, hf.slot_pk⟩
    | extracted hvalid => exact ⟨fun _ => hvalid, hf.s_h, hf.h_cnt, hf.slot_pk⟩
    | committed k =>
      exact ⟨hf.pk_s, hf.s_h, hf.h_cnt, State.forall_slotAt_committed hwf k
        (p := fun _ x => x.pkvalid = true → x.valid = true) (fun _ => rfl) hf.slot_pk⟩

/-- Settles O56: of the memories, the flag invariant needs only that the slots are canonical. -/
theorem stepKeepsFlagInvariant : Obligations.StepKeepsFlagInvariant := fun _ _ hm hf hstep =>
  (step_keeps (p := fun u => Sparse.wf Slot.empty u.slots = true ∧ u.FlagsOk) (fun n => ⟨rfl, resetWith_flagsOk n⟩)
    (fun _ _ h hu => ⟨h.slots_wf hu.1, h.flagsOk hu.1 hu.2⟩) ⟨hm.slots_wf, hf⟩ hstep).2

end Sys2Proof.Machine
end

section
/-! The invariants of the counts, the masses, the fault record, the results and the clusters (10_state R16, R17, R21, R24;
42_histogram R124, R129; 44_peak R156, R158), and the two statements that gather them. -/

namespace Sys2Proof.Machine

/-! ## Buckets and cells -/

/-- A bucket lies below the depth (41_quantize R110). -/
theorem bucket_toNat_lt (m v : Int) {d : Nat} (hd : 0 < d) : (bucket m v d).toNat < d := by
  have hle : bucket m v d ≤ (d : Int) - 1 := min_le_left _ _
  omega

theorem quant_lt (p : Int × Int × Int) {d : Nat} (hd : 0 < d) :
    (quant p d).1 < d ∧ (quant p d).2.1 < d ∧ (quant p d).2.2 < d :=
  ⟨bucket_toNat_lt _ _ hd, bucket_toNat_lt _ _ hd, bucket_toNat_lt _ _ hd⟩

/-- A pixel's cell is one of the `DEPTH^3` cells (00_scope R9, 42_histogram R121). -/
theorem pixelCell_lt (w : Word) {d : Nat} (hd : 0 < d) : pixelCell w d < d * d * d := by
  obtain ⟨hh, hc, hl⟩ := quant_lt (pixelHcl w) hd
  rw [pixelCell, cell]
  nlinarith

/-! ## Counts (42_histogram R124) -/

theorem State.RegsOk.d_pos {s : State} (h : s.RegsOk) : 0 < s.d := lt_of_lt_of_le (by decide) h.depth_ge

theorem resetWith_countsOk (n : Fin 65536) : (State.resetWith n).CountsOk := nofun

theorem State.CountsOk.of_sameTile {s t : State} (h : s.CountsOk) (e : s.SameTile t) : t.CountsOk := by
  rw [State.CountsOk, e.hInit, e.ncell, e.h, e.pixcnt]
  exact h

/-- A counted pixel adds one to its cell and one to `PIXCNT`, both with room for it. -/
theorem State.CountsOk.count {s : State} (hr : s.RegsOk) (hm : s.MemOk) (hc : s.CountsOk)
    (hinit : s.status.hInit = true) (hroom : s.pixcnt.toNat ≠ 2 ^ 24 - 1) :
    (s.count (pixelCell s.data.pixin s.d)).CountsOk := fun _ => by
  have htotal := hc hinit
  have hcell : pixelCell s.data.pixin s.d < s.ncell := pixelCell_lt _ hr.d_pos
  have hle := Sparse.read_le_total s.h hcell
  have hpix : (s.pixcnt + 1#24).toNat = s.pixcnt.toNat + 1 := by
    rw [BitVec.toNat_add, BitVec.toNat_ofNat, Nat.add_mod_mod, Nat.mod_eq_of_lt (by omega)]
  rw [State.count_pixcnt, hpix, ← htotal]
  exact Sparse.total_write_succ hm.h_wf hcell (by omega)

theorem Change.countsOk {s t : State} (h : Change s t) (hr : s.RegsOk) (hm : s.MemOk) (hc : s.CountsOk) :
    t.CountsOk := by
  rcases h with h | h
  · exact hc.of_sameTile h.sameTile
  · cases h with
    | depth => exact nofun
    | cleared => exact fun _ => (Sparse.total_replaceBelow _ _ _).trans (Sparse.total_nil _ _)
    | counted hinit hroom => exact hc.count hr hm hinit hroom
    | smoothed | extracted | committed => exact hc

/-! ## Masses (42_histogram R129, 44_peak R156, R158) -/

theorem resetWith_massOk (n : Fin 65536) : (State.resetWith n).MassOk where
  tile := nofun
  slot := fun _ hv => absurd hv (by simp [State.slotValid, State.slotAt, Slot.empty])
  tile_clusters := nofun
  slot_clusters := fun _ hv => absurd hv (by simp [State.slotValid, State.slotAt, Slot.empty])

theorem State.MassOk.of_sameTile {s t : State} (h : s.MassOk) (e : s.SameTile t) : t.MassOk where
  tile := by rw [e.sValid, e.ncell, e.smooth, e.pixcnt]; exact h.tile
  slot := fun k => by rw [e.slotValid, e.ncell, e.slotAt]; exact h.slot k
  tile_clusters := by rw [e.pkValid, e.tcl, e.pixcnt]; exact h.tile_clusters
  slot_clusters := fun k => by rw [e.slotValid, e.slotAt]; exact h.slot_clusters k

/-- Smoothing conserves mass (42_histogram R129). -/
theorem total_smoothed_tile {s : State} (hr : s.RegsOk) (hm : s.MemOk) (hc : s.CountsOk)
    (hinit : s.status.hInit = true) (htaps : s.cfg.tapSum = Config.tapOne) :
    Sparse.total s.ncell (Sparse.replaceBelow s.ncell (smoothed s.cfg s.d s.h) s.smooth) =
      s.pixcnt.toNat * 2 ^ 24 := by
  have hcount : Sparse.total s.ncell s.h < 2 ^ 24 := (hc hinit).symm ▸ s.pixcnt.isLt
  rw [Sparse.total_replaceBelow, ← hc hinit]
  exact total_smoothed hr.d_pos hm.h_wf htaps hcount

/-- A commit takes the tile's cluster list when there is one (45_assets_match R170). -/
theorem State.committed_cl {s : State} (hpk : s.status.pkValid = true) (old : Slot) : (s.committed old).cl = s.tcl :=
  if_pos hpk

/-- A committed slot carries the mass and the clusters of the tile (45_assets_match R170). -/
theorem State.MassOk.setSlot_committed {s : State} (hwf : Sparse.wf Slot.empty s.slots = true) (h : s.MassOk)
    (hvalid : s.status.sValid = true) (k : Nat) : (s.setSlot k (s.committed (s.slotAt k))).MassOk where
  tile := h.tile
  slot := State.forall_slotAt_committed hwf k
    (p := fun j x => (decide (j < s.nslot) && x.valid) = true → Sparse.total s.ncell x.cells = x.pixcnt.toNat * 2 ^ 24)
    (fun _ => (Sparse.total_replaceBelow _ _ _).trans (h.tile hvalid)) h.slot
  tile_clusters := h.tile_clusters
  slot_clusters := State.forall_slotAt_committed hwf k
    (p := fun j x => (decide (j < s.nslot) && x.valid) = true → x.pkvalid = true →
      (x.cl.map fun y => y.mass.toNat).sum ≤ x.pixcnt.toNat * 2 ^ 24)
    (fun _ hpk => (State.committed_cl hpk _).symm ▸ h.tile_clusters hpk) h.slot_clusters

theorem Change.massOk {s t : State} (h : Change s t) (hr : s.RegsOk) (hm : s.MemOk) (hf : s.FlagsOk) (hc : s.CountsOk)
    (hs : s.MassOk) : t.MassOk := by
  rcases h with h | h
  · exact hs.of_sameTile h.sameTile
  · cases h with
    | depth v _ hfree =>
      obtain ⟨-, hvalid, hslots⟩ := State.free_of_not_locked hm.slots_wf hfree
      have hnone : ∀ k, s.slotValid k ≠ true := fun k => Bool.eq_false_iff.1 (hslots k)
      have hunsmoothed : s.status.sValid ≠ true := Bool.eq_false_iff.1 hvalid
      exact ⟨fun h => absurd h hunsmoothed, fun k hk => absurd hk (hnone k),
        fun h => absurd (hf.pk_s h) hunsmoothed, fun k hk => absurd hk (hnone k)⟩
    | cleared | counted => exact ⟨nofun, hs.slot, nofun, hs.slot_clusters⟩
    | smoothed hinit htaps =>
      exact ⟨fun _ => total_smoothed_tile hr hm hc hinit htaps, hs.slot, nofun, hs.slot_clusters⟩
    | extracted hvalid =>
      exact ⟨hs.tile, hs.slot, fun _ => (peaks_mass_le_total _ _ _).trans (hs.tile hvalid).le, hs.slot_clusters⟩
    | committed k _ _ hvalid => exact hs.setSlot_committed hm.slots_wf hvalid k

/-- Settles O60: the three invariants stand on the legal registers and the canonical memories, and the five together hold at
reset and are kept by every change. -/
theorem reachableStatesMeetTheInvariants : Obligations.ReachableStatesMeetTheInvariants := by
  intro s hreachable
  obtain ⟨-, -, hflags, hcounts, hmass⟩ :=
    reachable_keeps (p := fun u => u.RegsOk ∧ u.MemOk ∧ u.FlagsOk ∧ u.CountsOk ∧ u.MassOk)
      (fun n => ⟨resetWith_regsOk n, resetWith_memOk n, resetWith_flagsOk n, resetWith_countsOk n, resetWith_massOk n⟩)
      (fun _ _ h ⟨hr, hm, hf, hc, hs⟩ =>
        ⟨h.regsOk hr, h.memOk hr hm, h.flagsOk hm.slots_wf hf, h.countsOk hr hm hc, h.massOk hr hm hf hc hs⟩) hreachable
  exact ⟨hflags, hcounts, hmass⟩

/-! ## The fault record (10_state R21, 60_exceptions R192) -/

theorem State.FaultOk.of_eq {s t : State} (h : s.FaultOk) (herr : t.status.err = s.status.err)
    (hcode : t.status.errCode = s.status.errCode) (hinfo : t.status.errInfo = s.status.errInfo) : t.FaultOk where
  clear := by rw [herr, hcode, hinfo]; exact h.clear
  latched := by rw [herr, hcode]; exact h.latched

theorem resetWith_faultOk (n : Fin 65536) : (State.resetWith n).FaultOk := ⟨fun _ => ⟨rfl, rfl⟩, nofun⟩

theorem Change.faultOk {s t : State} (h : Change s t) (hs : s.FaultOk) : t.FaultOk := by
  rcases h with h | h
  · cases h with
    | fault c => exact ⟨nofun, fun _ => c.code_range⟩
    | host | operand | reduced | scored | best | config | window | sealed => exact hs.of_eq rfl rfl rfl
  · obtain ⟨-, -, herr, hcode, hinfo⟩ := h.frame
    exact hs.of_eq herr hcode hinfo

/-! ## The result registers (10_state R16, R17) -/

/-- A score in range is read back from its word (10_state R17). -/
theorem scoreWord_toInt {q : Int} (hge : -(2 ^ 30) ≤ q) (hle : q ≤ 2 ^ 30) : (scoreWord q).toInt = q :=
  BitVec.toInt_ofInt_eq_self (by decide) (le_trans (by norm_num) hge) (lt_of_le_of_lt hle (by norm_num))

/-- A value below 32, shifted to bit `k`, has no bit outside `[k + 4 : k]`. -/
theorem getLsbD_shiftLeft_of_lt {n i k : Nat} (hn : n < 32) (hi : i < k ∨ k + 5 ≤ i) :
    (BitVec.ofNat 32 n <<< k).getLsbD i = false := by
  rw [BitVec.getLsbD_shiftLeft, BitVec.getLsbD_ofNat]
  rcases hi with hlow | hhigh
  · rw [decide_eq_true hlow, Bool.not_true, Bool.and_false, Bool.false_and]
  · have hpow : n < 2 ^ (i - k) :=
      lt_of_lt_of_le (show n < 2 ^ 5 from hn) (Nat.pow_le_pow_right (by decide) (by omega))
    rw [Nat.testBit_lt_two_pow hpow, Bool.and_false, Bool.and_false]

/-- Buckets below 32 leave the reserved bits of `RED` zero (10_state R16). -/
theorem bucketWord_reserved {h c l : Nat} (hh : h < 32) (hc : c < 32) (hl : l < 32) :
    bucketWord h c l &&& 0xFFE0E0E0#32 = 0#32 := by
  have hreserved : ∀ i < 32, (0xFFE0E0E0#32).getLsbD i = true →
      0 + 5 ≤ i ∧ (i < 8 ∨ 8 + 5 ≤ i) ∧ (i < 16 ∨ 16 + 5 ≤ i) := by decide
  apply BitVec.eq_of_getLsbD_eq
  intro i hi
  rw [BitVec.getLsbD_and, BitVec.getLsbD_zero, Bool.and_eq_false_iff]
  cases hmask : (0xFFE0E0E0#32).getLsbD i with
  | false => exact .inr rfl
  | true =>
    obtain ⟨hbitl, hbitc, hbith⟩ := hreserved i hi hmask
    refine .inl ?_
    rw [bucketWord, BitVec.getLsbD_or, BitVec.getLsbD_or, getLsbD_shiftLeft_of_lt hh hbith,
      getLsbD_shiftLeft_of_lt hc hbitc, ← BitVec.shiftLeft_zero (x := BitVec.ofNat 32 l),
      getLsbD_shiftLeft_of_lt hl (.inr hbitl)]
    rfl

theorem resetWith_resultsOk (n : Fin 65536) : (State.resetWith n).ResultsOk :=
  have hge : -(2 ^ 30) ≤ (0#32).toInt := by decide
  have hle : (0#32).toInt ≤ 2 ^ 30 := by decide
  ⟨(by decide : 0#32 &&& 0xFFE0E0E0#32 = 0#32), hge, hle, hge, hle⟩

theorem State.ResultsOk.of_eq {s t : State} (h : s.ResultsOk) (hred : t.data.red = s.data.red)
    (hscore : t.data.score = s.data.score) (hbest : t.data.bestScore = s.data.bestScore) : t.ResultsOk where
  red_bits := hred ▸ h.red_bits
  score_ge := hscore ▸ h.score_ge
  score_le := hscore ▸ h.score_le
  best_ge := hbest ▸ h.best_ge
  best_le := hbest ▸ h.best_le

theorem Change.resultsOk {s t : State} (h : Change s t) (hr : s.RegsOk) (hs : s.ResultsOk) : t.ResultsOk := by
  rcases h with h | h
  · cases h with
    | operand x hred hscore hbest => exact hs.of_eq hred hscore hbest
    | reduced =>
      obtain ⟨hh, hc, hl⟩ := quant_lt s.data.hcl hr.d_pos
      have hd := hr.depth_le
      exact { hs with red_bits := bucketWord_reserved (by omega) (by omega) (by omega) }
    | scored r hge hle =>
      have hword := scoreWord_toInt hge hle
      exact { hs with score_ge := hge.trans_eq hword.symm, score_le := hword.trans_le hle }
    | best w hge hle =>
      have hword := scoreWord_toInt hge hle
      exact { hs with best_ge := hge.trans_eq hword.symm, best_le := hword.trans_le hle }
    | host | fault | config | window | sealed => exact hs.of_eq rfl rfl rfl
  · have hdata := h.frame.1
    exact hs.of_eq (congrArg DataRegs.red hdata) (congrArg DataRegs.score hdata) (congrArg DataRegs.bestScore hdata)

/-! ## The clusters (10_state R24) -/

/-- The buckets of a cell lie below the depth (00_scope R9). -/
theorem cellTriple_lt {d i : Nat} (hi : i < d * d * d) :
    (cellTriple d i).1 < d ∧ (cellTriple d i).2.1 < d ∧ (cellTriple d i).2.2 < d := by
  have hd : 0 < d := Nat.pos_of_mul_pos_left (Nat.zero_lt_of_lt hi)
  exact ⟨Nat.div_lt_of_lt_mul (Nat.div_lt_of_lt_mul (by rwa [← Nat.mul_assoc])), Nat.mod_lt _ hd, Nat.mod_lt _ hd⟩

/-- Every cluster of a list is the record of one of the `DEPTH^3` cells (44_peak R152). -/
theorem mem_peaks {m : Sparse (BitVec 48)} {d maxPeaks : Nat} {x : Cluster} (hx : x ∈ peaks m d maxPeaks) :
    ∃ i < d * d * d, x = clusterOf m d i := by
  obtain ⟨i, hi, rfl⟩ := List.mem_map.1 hx
  have hpeak : i ∈ peakCells m d := (rankSort_perm m _).mem_iff.1 (List.mem_of_mem_take hi)
  exact ⟨i, List.mem_range.1 (List.mem_filter.1 hpeak).1, rfl⟩

/-- The clusters of a list lie at buckets below the depth. -/
theorem mem_peaks_lt {m : Sparse (BitVec 48)} {d maxPeaks : Nat} {x : Cluster} (hx : x ∈ peaks m d maxPeaks) :
    x.h.toNat < d ∧ x.c.toNat < d ∧ x.l.toNat < d := by
  obtain ⟨i, hi, rfl⟩ := mem_peaks hx
  obtain ⟨hh, hc, hl⟩ := cellTriple_lt hi
  have hfield : ∀ {n : Nat}, n < d → (BitVec.ofNat 5 n).toNat < d := fun hn => by
    rw [BitVec.toNat_ofNat]
    exact (Nat.mod_le _ _).trans_lt hn
  exact ⟨hfield hh, hfield hc, hfield hl⟩

theorem resetWith_clustersOk (n : Fin 65536) : (State.resetWith n).ClustersOk where
  tile := nofun
  slot := fun _ _ => nofun

theorem State.ClustersOk.of_sameTile {s t : State} (h : s.ClustersOk) (e : s.SameTile t) : t.ClustersOk where
  tile := by rw [e.pkValid, e.tcl, e.d]; exact h.tile
  slot := fun k => by rw [e.slotValid, e.slotAt, e.d]; exact h.slot k

theorem Change.clustersOk {s t : State} (h : Change s t) (hm : s.MemOk) (hf : s.FlagsOk) (hs : s.ClustersOk) :
    t.ClustersOk := by
  rcases h with h | h
  · exact hs.of_sameTile h.sameTile
  · cases h with
    | depth v _ hfree =>
      obtain ⟨-, hvalid, hslots⟩ := State.free_of_not_locked hm.slots_wf hfree
      exact ⟨fun h => absurd (hf.pk_s h) (Bool.eq_false_iff.1 hvalid),
        fun k hk => absurd hk (Bool.eq_false_iff.1 (hslots k))⟩
    | cleared | counted | smoothed => exact ⟨nofun, hs.slot⟩
    | extracted => exact ⟨fun _ _ hx => mem_peaks_lt hx, hs.slot⟩
    | committed k =>
      exact ⟨hs.tile, State.forall_slotAt_committed hm.slots_wf k
        (p := fun j x => (decide (j < s.nslot) && x.valid) = true → x.pkvalid = true →
          ∀ y ∈ x.cl, y.h.toNat < s.d ∧ y.c.toNat < s.d ∧ y.l.toNat < s.d)
        (fun _ hpk => (State.committed_cl hpk _).symm ▸ hs.tile hpk) hs.slot⟩

/-- Settles O59: the six invariants together hold at reset and are kept by every change. -/
theorem stepKeepsObservableRanges : Obligations.StepKeepsObservableRanges := by
  intro s t hregs hmem hflags hfault hresults hclusters hstep
  obtain ⟨-, -, -, hfault', hresults', hclusters'⟩ :=
    step_keeps (p := fun u => u.RegsOk ∧ u.MemOk ∧ u.FlagsOk ∧ u.FaultOk ∧ u.ResultsOk ∧ u.ClustersOk)
      (fun n => ⟨resetWith_regsOk n, resetWith_memOk n, resetWith_flagsOk n, resetWith_faultOk n, resetWith_resultsOk n,
        resetWith_clustersOk n⟩)
      (fun _ _ h ⟨hr, hm, hf, hlatch, hres, hcl⟩ => ⟨h.regsOk hr, h.memOk hr hm, h.flagsOk hm.slots_wf hf,
        h.faultOk hlatch, h.resultsOk hr hres, h.clustersOk hm hf hcl⟩)
      ⟨hregs, hmem, hflags, hfault, hresults, hclusters⟩ hstep
  exact ⟨hfault', hresults', hclusters'⟩

end Sys2Proof.Machine
end

section
/-! A run is the left fold of the access step: an access reads nothing of the pending list and leaves it as it is, so that
performing the accesses from the list and performing them one by one go through the same CME states (20_memory R43, R53). -/

namespace Sys2Proof.Machine

/-! ## Accesses of the interface (20_memory R40, R43) -/

theorem Access.wellFormed_iff {a : Access} : a.wellFormed = true ↔ a.width = .word ∧ a.off % 4 = 0 ∧ a.off < 256 := by
  simp [Access.wellFormed, and_assoc]

/-- An access that is not part of the interface is refused (20_memory R43). -/
theorem access_of_not_wellFormed (s : State) {a : Access} (h : ¬ a.wellFormed = true) : ∃ r, s.access a = .refused r := by
  obtain ⟨r, hr⟩ := Option.ne_none_iff_exists'.1 (mt Access.refusal_eq_none.1 h)
  exact ⟨r, by rw [State.access, hr]⟩

/-- Settles O6: the accesses with a step are the well-formed ones. -/
theorem onlyWindowWordAccessesStep : Obligations.OnlyWindowWordAccessesStep := by
  intro s w off v
  have hrd : (Access.rd w off).wellFormed = true ↔ w = .word ∧ off % 4 = 0 ∧ off < 256 := Access.wellFormed_iff
  have hwr : (Access.wr w off v).wellFormed = true ↔ w = .word ∧ off % 4 = 0 ∧ off < 256 := Access.wellFormed_iff
  exact ⟨fun h => ⟨access_next (hrd.2 h), access_next (hwr.2 h)⟩,
    fun h => ⟨access_of_not_wellFormed s (mt hrd.1 h), access_of_not_wellFormed s (mt hwr.1 h)⟩⟩

/-- A read of the interface answers the register's value (20_memory R45). -/
theorem access_rd (s : State) {off : Nat} (h4 : off % 4 = 0) (h : off < 256) :
    s.access (.rd .word off) = .next (s.setRdata (s.readAt off)) :=
  access_of_wellFormed (Access.wellFormed_rd h4 h)

/-- A write of an offset without a register goes through the `ERR` gate (20_memory R47). -/
theorem access_wr_unmapped (s : State) {off : Nat} (h4 : off % 4 = 0) (h : off < 256) (ho : Reg.atOffset off = none)
    (v : Word) : s.access (.wr .word off v) = .next (s.gate (s.writeUnmapped off)) := by
  rw [access_of_wellFormed (Access.wellFormed_wr h4 h)]
  simp only [State.perform, ho, State.command]

/-! ## Effects that ignore the pending list -/

/-- An effect on the CME that neither reads nor changes the host's pending accesses. -/
def IgnoresPending (f : State → State) : Prop := ∀ s p, f (s.setPending p) = (f s).setPending p

namespace IgnoresPending

theorem ite {b : State → Prop} [DecidablePred b] {f g : State → State} (hb : ∀ s p, b (s.setPending p) = b s)
    (hf : IgnoresPending f) (hg : IgnoresPending g) : IgnoresPending fun s => if b s then f s else g s := by
  intro s p
  simp only [hb, hf s p, hg s p, apply_ite fun t : State => t.setPending p]

theorem raise (c : ErrCode) (info : Word) : IgnoresPending fun s => s.raise c info :=
  ite (fun _ _ => rfl) (fun _ _ => rfl) (fun _ _ => rfl)

theorem gate {e : State → State} (he : IgnoresPending e) : IgnoresPending fun s => s.gate (e s) :=
  ite (fun _ _ => rfl) (fun _ _ => rfl) he

theorem require {ok : State → Bool} (hok : ∀ s p, ok (s.setPending p) = ok s) (c : ErrCode) (i : Instr)
    {k : State → State} (hk : IgnoresPending k) : IgnoresPending fun s => s.require (ok s) c i (k s) :=
  ite (fun s p => congrArg (· = true) (hok s p)) hk (raise c (encode i))

theorem accumulate : IgnoresPending State.accumulate :=
  require (fun _ _ => rfl) _ _ (require (fun _ _ => rfl) _ _ fun _ _ => rfl)

/-- The end of `MATCH`: the winner's registers, or the fault of an empty set (45_assets_match R174, R175). -/
theorem setBest_winner {f : State → State} (hsome : ∀ s w, winner s.candidates = some w → f s = s.setBest w)
    (hnone : ∀ s, winner s.candidates = none → f s = s.raise .emptySet (encode .matchBest)) : IgnoresPending f := by
  intro s p
  have hsame : winner (s.setPending p).candidates = winner s.candidates := rfl
  cases hw : winner s.candidates with
  | some w => rw [hsome _ w (hsame.trans hw), hsome s w hw]; rfl
  | none => rw [hnone _ (hsame.trans hw), hnone s hw]; exact raise _ _ s p

theorem writeDepth (v : Word) : IgnoresPending fun s => s.writeDepth v :=
  ite (fun _ _ => rfl) (fun _ _ => rfl) (ite (fun _ _ => rfl) (raise _ _) fun _ _ => rfl)

theorem install (r : Reg) (v : Word) : IgnoresPending fun s => s.install r v := by
  cases r
  case pixpush => exact fun s p => accumulate (s.setData { s.data with pixin := v }) p
  case depth => exact writeDepth v
  all_goals exact fun _ _ => rfl

theorem writeReg (r : Reg) (v : Word) : IgnoresPending fun s => s.writeReg r v :=
  ite (fun _ _ => rfl) (raise _ _) (ite (fun _ _ => rfl) (install r v) (raise _ _))

end IgnoresPending

/-! ## Every access of the interface is such an effect -/

/-- `run` always answers a next state, by an effect that ignores the pending list. -/
def RunsEffect (run : State → Result) : Prop := ∃ f, IgnoresPending f ∧ ∀ s, run s = .next (f s)

theorem RunsEffect.of_eq {run : State → Result} {f : State → State} (h : ∀ s, run s = .next (f s))
    (hf : IgnoresPending f) : RunsEffect run := ⟨f, hf, h⟩

theorem exec_runsEffect (i : Instr) : RunsEffect (exec i) := by
  cases i with
  | nop => exact .of_eq exec_nop fun _ _ => rfl
  | sreset => exact .of_eq exec_sreset fun _ _ => rfl
  | cvtRgb2hcl => exact .of_eq exec_cvtRgb2hcl (.gate fun _ _ => rfl)
  | cvtHcl2rgb => exact .of_eq exec_cvtHcl2rgb (.gate (.require (fun _ _ => rfl) _ _ fun _ _ => rfl))
  | quant => exact .of_eq exec_quant (.gate (.require (fun _ _ => rfl) _ _ fun _ _ => rfl))
  | hClear => exact .of_eq exec_hClear (.gate fun _ _ => rfl)
  | hAcc => exact .of_eq exec_hAcc (.gate .accumulate)
  | hSmooth =>
    exact .of_eq exec_hSmooth (.gate (.require (fun _ _ => rfl) _ _ (.require (fun _ _ => rfl) _ _ fun _ _ => rfl)))
  | pExtract => exact .of_eq exec_pExtract (.gate (.require (fun _ _ => rfl) _ _ fun _ _ => rfl))
  | aCommit slot =>
    exact .of_eq (exec_aCommit slot) (.gate (.require (fun _ _ => rfl) _ _ (.require (fun _ _ => rfl) _ _
      (.require (fun _ _ => rfl) _ _ fun _ _ => rfl))))
  | aSeal => exact .of_eq exec_aSeal (.gate fun _ _ => rfl)
  | sCorr slot =>
    exact .of_eq (exec_sCorr slot) (.gate (.require (fun _ _ => rfl) _ _ (.require (fun _ _ => rfl) _ _
      (.require (fun _ _ => rfl) _ _ fun _ _ => rfl))))
  | sPeak slot =>
    exact .of_eq (exec_sPeak slot) (.gate (.require (fun _ _ => rfl) _ _ (.require (fun _ _ => rfl) _ _
      (.require (fun _ _ => rfl) _ _ (.require (fun _ _ => rfl) _ _ fun _ _ => rfl)))))
  | matchBest =>
    refine .of_eq exec_matchBest (.gate (.require (fun _ _ => rfl) _ _ (.require (fun _ _ => rfl) _ _
      (.require (fun _ _ => rfl) _ _ (.require (fun _ _ => rfl) _ _ (.setBest_winner ?_ ?_))))))
    · intro s w hw; rw [hw]
    · intro s hw; rw [hw]

theorem writeCmd_runsEffect (w : Word) : RunsEffect fun s => s.writeCmd w := by
  cases hw : decode w with
  | ok i =>
    obtain ⟨f, hf, hrun⟩ := exec_runsEffect i
    exact ⟨f, hf, fun s => (writeCmd_of_decode s hw).trans (hrun s)⟩
  | error e =>
    exact .of_eq (fun s => by rw [State.writeCmd, hw, State.command_eq]) (.gate (.raise .illegalCmd w))

/-- An access of the interface reads and changes the CME alone (00_scope R5). -/
theorem access_runsEffect {a : Access} (h : a.wellFormed = true) : RunsEffect fun s => s.access a := by
  obtain ⟨hword, h4, hlt⟩ := Access.wellFormed_iff.1 h
  cases a with
  | rd w off =>
    cases hword
    exact .of_eq (fun s => access_rd s h4 hlt) fun _ _ => rfl
  | wr w off v =>
    cases hword
    cases ho : Reg.atOffset off with
    | none => exact .of_eq (fun s => access_wr_unmapped s h4 hlt ho v) (.gate (.raise _ _))
    | some r =>
      cases Reg.offset_of_atOffset ho
      by_cases hcmd : r = .cmd
      · cases hcmd
        obtain ⟨f, hf, hrun⟩ := writeCmd_runsEffect v
        exact ⟨f, hf, fun s => (access_wr_cmd s v).trans (hrun s)⟩
      · exact .of_eq (fun s => access_wr_reg s hcmd v) (.gate (.writeReg r v))

/-! ## Runs (20_memory R53) -/

theorem run_succ_of_step {M : Host.Core} {s t : M.State} (h : M.step s = .next t) (n : Nat) :
    M.run (n + 1) s = M.run n t := by
  rw [Host.Core.run, h]

theorem core_run_succ_of_step {s t : State} (h : step s = .next t) (n : Nat) :
    Host.Core.run core (n + 1) s = Host.Core.run core n t :=
  run_succ_of_step (M := core) (s := s) (t := t) h n

theorem runAccesses_cons_of_next {s t : State} {a : Access} (h : s.access a = .next t) (as : List Access) :
    s.runAccesses (a :: as) = t.runAccesses as := by
  rw [State.runAccesses, h]

/-- Running a list of pending accesses ends where performing them one by one ends. -/
theorem run_eq_runAccesses : ∀ (as : List Access) (s : State), (∀ a ∈ as, a.wellFormed = true) →
    ∃ t, (s.setPending []).runAccesses as = .next t ∧ Host.Core.run core as.length (s.setPending as) = .next t
  | [], s, _ => ⟨s.setPending [], rfl, rfl⟩
  | a :: as, s, h => by
    obtain ⟨f, hf, hrun⟩ := access_runsEffect (h a (.head as))
    have haccess : ∀ p, (s.setPending p).access a = .next ((f s).setPending p) := fun p =>
      (hrun _).trans (congrArg _ (hf s p))
    have hstep : step (s.setPending (a :: as)) = .next ((f s).setPending as) :=
      (step_of_pending rfl).trans (haccess as)
    obtain ⟨t, hfold, hsteps⟩ := run_eq_runAccesses as (f s) fun b hb => h b (.tail a hb)
    exact ⟨t, (runAccesses_cons_of_next (haccess []) as).trans hfold, (core_run_succ_of_step hstep _).trans hsteps⟩

/-- Settles O5, by induction on the list of accesses. -/
theorem runIsLeftFoldOfAccesses : Obligations.RunIsLeftFoldOfAccesses :=
  ⟨fun s hnone => by rw [step, hnone], run_eq_runAccesses⟩

end Sys2Proof.Machine
end

section
/-! What the host reads and which offsets it cannot write: the value at every offset, the `STATUS` word and the read-back
windows (10_state R11, R13, R15, R18, R20, R21; 20_memory R42, R45 to R47, R49 to R51). -/

namespace Sys2Proof.Machine

/-! ## Reads (20_memory R45, R46) -/

theorem readAt_unmapped (s : State) {off : Nat} (h : 0xAC ≤ off) : s.readAt off = 0#32 := by
  rw [State.readAt, Reg.atOffset_unmapped h]

/-- A register that shows a narrower field reads that field's value. -/
theorem toNat_readAt_offset {s : State} {r : Reg} {n : Nat} {x : BitVec n} (hn : n ≤ 32)
    (h : s.readReg r = x.setWidth 32) : (s.readAt r.offset).toNat = x.toNat := by
  rw [readAt_offset, h, BitVec.toNat_setWidth_of_le hn]

/-- `NSLOT` fits the register that shows it. -/
theorem toNat_readReg_nslots (s : State) : (s.readReg .nslots).toNat = s.nslot := by
  have hlt := s.nslotPred.isLt
  exact Nat.mod_eq_of_lt (by rw [State.nslot]; omega)

/-- Settles O40: a read is `access_rd`, and each offset is its register's. -/
theorem readsChangeNothing : Obligations.ReadsChangeNothing := by
  intro s
  have hwide : ∀ r : Reg, s.readAt r.offset = s.readReg r := readAt_offset s
  have hfield : ∀ (r : Reg) {n : Nat} {x : BitVec n}, n ≤ 32 → s.readReg r = x.setWidth 32 →
      (s.readAt r.offset).toNat = x.toNat := fun _ _ _ => toNat_readAt_offset
  refine ⟨fun off h4 hlt => ⟨access_rd s h4 hlt, rfl, rfl⟩, hwide .id, hwide .errcode, hwide .errinfo, hwide .pixin,
    hwide .pixout, hfield .hclH (by decide) rfl, hfield .hclC (by decide) rfl, hfield .hclL (by decide) rfl,
    hwide .red, hwide .score, hfield .bestSlot (by decide) rfl, hwide .bestId, hwide .bestScore,
    hfield .depth (by decide) rfl, hfield .sradius (by decide) rfl, hfield .ktap0 (by decide) rfl,
    hfield .ktap1 (by decide) rfl, hfield .ktap2 (by decide) rfl, hfield .ktap3 (by decide) rfl,
    hfield .ktap4 (by decide) rfl, hfield .matchalg (by decide) rfl, hfield .maxpeaks (by decide) rfl,
    hfield .pdsH (by decide) rfl, hfield .pdsC (by decide) rfl, hfield .pdsL (by decide) rfl, hwide .assetId,
    hfield .pixcnt (by decide) rfl, hwide .hsel, hfield .haddr (by decide) rfl, hwide .clsel, ?_⟩
  exact (congrArg BitVec.toNat (hwide .nslots)).trans (toNat_readReg_nslots s)

/-- A flag's word has that flag at its position and no other bit. -/
theorem getLsbD_flagBit {b : Bool} {k i : Nat} (hk : k < 32) : (flagBit b k).getLsbD i = (decide (i = k) && b) := by
  cases b with
  | false => rw [flagBit, if_neg Bool.false_ne_true, BitVec.getLsbD_zero, Bool.and_false]
  | true =>
    rw [flagBit, if_pos rfl, ← BitVec.twoPow_eq, BitVec.getLsbD_twoPow, decide_eq_true hk, Bool.true_and, Bool.and_true]
    exact decide_eq_decide.2 eq_comm

/-- The bits of the `STATUS` word (10_state R13). -/
theorem Status.getLsbD_word (x : Status) (i : Nat) : x.word.getLsbD i =
    (decide (i = 0) && x.err || decide (i = 1) && x.sealed || decide (i = 2) && x.hInit || decide (i = 3) && x.sValid ||
      decide (i = 4) && x.pkValid || decide (i = 5) && x.degen || decide (i = 6) && x.bestValid) := by
  simp only [Status.word, BitVec.getLsbD_or]
  rw [getLsbD_flagBit (by omega), getLsbD_flagBit (by omega), getLsbD_flagBit (by omega), getLsbD_flagBit (by omega),
    getLsbD_flagBit (by omega), getLsbD_flagBit (by omega), getLsbD_flagBit (by omega)]

/-- No flag stands above bit 6. -/
theorem Status.getLsbD_word_of_ge (x : Status) {i : Nat} (h : 7 ≤ i) : x.word.getLsbD i = false := by
  have hne : ∀ k ≤ 6, decide (i = k) = false := fun k hk => decide_eq_false (by omega)
  simp [Status.getLsbD_word, hne]

/-- Settles O41: the write-only registers and the offsets without a register read 0; `STATUS` is its word. -/
theorem zeroReadsAndTheStatusWord : Obligations.ZeroReadsAndTheStatusWord := by
  intro s
  refine ⟨fun off hoff => ?_, s.status.word, ?_, ?_, ?_, ?_, ?_, ?_, ?_, ?_, fun k => s.status.getLsbD_word_of_ge⟩
  · have hzero : s.readAt off = 0#32 := by
      rcases hoff with rfl | rfl | ⟨-, hge, -⟩
      · exact readAt_offset s .cmd
      · exact readAt_offset s .pixpush
      · exact readAt_unmapped s hge
    rw [access_rd s (by omega) (by omega), hzero]
  · rw [access_rd s (by decide) (by decide)]
    exact congrArg (fun w => Host.Outcome.next (s.setRdata w)) (readAt_offset s .status)
  all_goals exact (s.status.getLsbD_word _).trans (by simp)

/-! ## Writes that fault (20_memory R47) -/

/-- A write of a read-only register raises `ERR_ACCESS` with its offset. -/
theorem access_wr_ro {s : State} (herr : s.status.err = false) {r : Reg} (hmode : r.mode = .ro) (v : Word) :
    s.access (.wr .word r.offset v) = .next (s.raiseAt .access r.offset) := by
  have hcmd : r ≠ .cmd := by rintro rfl; cases hmode
  rw [access_wr_reg s hcmd, State.gate_of_clear herr, State.writeReg, if_pos hmode]

/-- Settles O42: the listed offsets are those of the read-only registers; the others hold no register. -/
theorem readOnlyAndUnmappedWritesFault : Obligations.ReadOnlyAndUnmappedWritesFault := by
  intro s off v herr hoff
  have hraise : s.access (.wr .word off v) = .next (s.raiseAt .access off) := by
    rcases hoff with hro | ⟨h4, hge, hle⟩
    · have hreg : ∃ r : Reg, r.mode = .ro ∧ r.offset = off := by
        have hrow : off ∈ (Reg.all.filter fun r => r.mode = .ro).map Reg.offset := hro
        obtain ⟨r, hr, hoffset⟩ := List.mem_map.1 hrow
        exact ⟨r, of_decide_eq_true (List.mem_filter.1 hr).2, hoffset⟩
      obtain ⟨r, hmode, rfl⟩ := hreg
      exact access_wr_ro herr hmode v
    · rw [access_wr_unmapped s h4 (by omega) (Reg.atOffset_unmapped hge), State.gate_of_clear herr,
        State.writeUnmapped]
  rw [hraise, State.raiseAt, State.raise_of_clear herr]
  rfl

/-! ## Words of the windows (20_memory R42, R50, R51) -/

theorem toNat_loWord (v : BitVec 48) : (loWord v).toNat = v.toNat % 2 ^ 32 := by
  rw [loWord, BitVec.extractLsb'_toNat, Nat.shiftRight_zero]

theorem toNat_hiWord (v : BitVec 48) : (hiWord v).toNat = v.toNat / 2 ^ 32 := by
  have hlt := v.isLt
  rw [hiWord, BitVec.toNat_setWidth_of_le (by decide), BitVec.extractLsb'_toNat, Nat.shiftRight_eq_div_pow]
  omega

/-- A field above the bits of another: the two words put together by `|||` add up. -/
theorem toNat_shiftLeft_or {a k : Nat} {y : Word} (ha : a * 2 ^ k < 2 ^ 32) (hy : y.toNat < 2 ^ k) :
    (BitVec.ofNat 32 a <<< k ||| y).toNat = a * 2 ^ k + y.toNat := by
  have hword : a < 2 ^ 32 := lt_of_le_of_lt (Nat.le_mul_of_pos_right a (Nat.two_pow_pos k)) ha
  rw [BitVec.toNat_or, BitVec.toNat_shiftLeft, BitVec.toNat_ofNat, Nat.mod_eq_of_lt hword, Nat.shiftLeft_eq,
    Nat.mod_eq_of_lt ha, Nat.mul_comm, Nat.two_pow_add_eq_or_of_lt hy]

theorem toNat_bucketWord {h c l : Nat} (hh : h < 2 ^ 16) (hc : c < 2 ^ 8) (hl : l < 2 ^ 8) :
    (bucketWord h c l).toNat = h * 2 ^ 16 + c * 2 ^ 8 + l := by
  have hlword : (BitVec.ofNat 32 l).toNat = l := Nat.mod_eq_of_lt (by omega)
  have hlow : (BitVec.ofNat 32 c <<< 8 ||| BitVec.ofNat 32 l).toNat = c * 2 ^ 8 + l := by
    rw [toNat_shiftLeft_or (by omega) (by omega), hlword]
  rw [bucketWord, BitVec.or_assoc, toNat_shiftLeft_or (by omega) (by omega), hlow, Nat.add_assoc]

theorem Cluster.toNat_posWord (x : Cluster) :
    x.posWord.toNat = x.h.toNat * 2 ^ 16 + x.c.toNat * 2 ^ 8 + x.l.toNat :=
  toNat_bucketWord (by omega) (by omega) (by omega)

/-! ## Fields of the window registers (10_state R20) -/

theorem WinRegs.kind_eq (x : WinRegs) : x.kind = x.hsel.toNat % 4 := by
  rw [WinRegs.kind, BitVec.extractLsb'_toNat, Nat.shiftRight_zero]

/-- The high half of a word, the slot field of `HSEL` and `CLSEL`. -/
theorem toNat_extractLsb'_high (v : Word) : (v.extractLsb' 16 16).toNat = v.toNat / 2 ^ 16 := by
  have hlt := v.isLt
  rw [BitVec.extractLsb'_toNat, Nat.shiftRight_eq_div_pow]
  omega

theorem WinRegs.hslot_eq (x : WinRegs) : x.hslot = x.hsel.toNat / 2 ^ 16 := toNat_extractLsb'_high x.hsel

theorem WinRegs.clSlot_eq (x : WinRegs) : x.clSlot = x.clsel.toNat / 2 ^ 16 := toNat_extractLsb'_high x.clsel

theorem WinRegs.clIndex_eq (x : WinRegs) : x.clIndex = x.clsel.toNat % 16 := by
  rw [WinRegs.clIndex, BitVec.extractLsb'_toNat, Nat.shiftRight_zero]

theorem State.slotValid_iff {s : State} {k : Nat} : s.slotValid k = true ↔ k < s.nslot ∧ (s.slotAt k).valid = true := by
  rw [State.slotValid, Bool.and_eq_true, decide_eq_true_eq]

theorem State.ncell_eq_pow (s : State) : s.ncell = s.d ^ 3 := by rw [State.ncell, pow_succ, pow_two]

/-! ## The histogram window (20_memory R49) -/

/-- Settles O47: the value is the selected cell, and the two registers are its words. -/
theorem histogramWindowReads : Obligations.HistogramWindowReads := by
  intro s
  refine ⟨s.histWindow.toNat, s.histWindow.isLt, ?_, ?_, ?_⟩
  · exact (congrArg BitVec.toNat (readAt_offset s .hdataLo)).trans (toNat_loWord _)
  · exact (congrArg BitVec.toNat (readAt_offset s .hdataHi)).trans (toNat_hiWord _)
  · rw [← WinRegs.kind_eq, ← WinRegs.hslot_eq, ← State.ncell_eq_pow, State.histWindow, apply_ite BitVec.toNat,
      apply_ite BitVec.toNat, apply_ite BitVec.toNat, BitVec.toNat_setWidth_of_le (by decide)]
    exact if_congr .rfl rfl (if_congr .rfl rfl
      (if_congr (and_congr_right fun _ => (and_congr_left fun _ => State.slotValid_iff).trans and_assoc) rfl rfl))

/-! ## The cluster window (20_memory R50) -/

/-- The selected list in the terms of the two registers' fields. -/
theorem State.clusterList_eq (s : State) : s.clusterList =
    if s.win.clSrc = false ∧ s.status.pkValid = true then s.tcl
    else if s.win.clSrc = true ∧ s.win.clSlot < s.nslot ∧ (s.slotAt s.win.clSlot).valid = true ∧
        (s.slotAt s.win.clSlot).pkvalid = true then (s.slotAt s.win.clSlot).cl
    else [] := by
  have hslot : (s.slotValid s.win.clSlot && (s.slotAt s.win.clSlot).pkvalid) = true ↔ s.win.clSlot < s.nslot ∧
      (s.slotAt s.win.clSlot).valid = true ∧ (s.slotAt s.win.clSlot).pkvalid = true := by
    rw [Bool.and_eq_true, State.slotValid_iff, and_assoc]
  rw [State.clusterList]
  cases s.win.clSrc with
  | false => simp
  | true => simp [hslot]

/-- The lists that can be selected are no longer than `PKMAX`. -/
theorem State.clusterList_length_le {s : State} (h : s.MemOk) : s.clusterList.length ≤ 16 := by
  rw [State.clusterList_eq]
  split_ifs
  · exact h.tcl_le
  · exact h.cl_le _
  · exact Nat.zero_le _

/-- `CL_POS` and the two words of `CL_MASS` show the selected entry. -/
theorem readReg_cluster_of_some {s : State} {x : Cluster} (h : s.clusterEntry = some x) :
    s.readReg .clPos = x.posWord ∧ s.readReg .clMassLo = loWord x.mass ∧ s.readReg .clMassHi = hiWord x.mass := by
  simp only [State.readReg, h, and_self]

theorem readReg_cluster_of_none {s : State} (h : s.clusterEntry = none) :
    s.readReg .clPos = 0#32 ∧ s.readReg .clMassLo = 0#32 ∧ s.readReg .clMassHi = 0#32 := by
  simp only [State.readReg, h, and_self]

/-- Settles O48: the list is `clusterList`, its length fits `CL_N`, and the entry is there or not. -/
theorem clusterWindowReads : Obligations.ClusterWindowReads := by
  intro s hmem
  have hread : ∀ r : Reg, s.readAt r.offset = s.readReg r := readAt_offset s
  refine ⟨s.clusterList, ?_, ?_, ?_, ?_⟩
  · rw [← WinRegs.clSlot_eq]
    exact s.clusterList_eq
  · have hlen := State.clusterList_length_le hmem
    exact (congrArg BitVec.toNat (hread .clN)).trans (Nat.mod_eq_of_lt (by omega))
  · intro x hx
    rw [← WinRegs.clIndex_eq] at hx
    obtain ⟨hpos, hlo, hhi⟩ := readReg_cluster_of_some hx
    refine ⟨?_, ?_, ?_⟩
    · exact (congrArg BitVec.toNat ((hread .clPos).trans hpos)).trans x.toNat_posWord
    · exact (congrArg BitVec.toNat ((hread .clMassLo).trans hlo)).trans (toNat_loWord x.mass)
    · exact (congrArg BitVec.toNat ((hread .clMassHi).trans hhi)).trans (toNat_hiWord x.mass)
  · intro hpast
    rw [← WinRegs.clIndex_eq] at hpast
    obtain ⟨hpos, hlo, hhi⟩ := readReg_cluster_of_none (List.getElem?_eq_none hpast)
    exact ⟨(hread .clPos).trans hpos, (hread .clMassLo).trans hlo, (hread .clMassHi).trans hhi⟩

/-! ## The slot information (20_memory R51) -/

/-- The layout of `SL_STAT` for a valid slot: `VALID` in bit 0, `PKVALID` in bit 1, `CLN` from bit 8 on. -/
theorem State.toNat_slotStat {s : State} (h : s.MemOk) (hv : s.slotValid s.win.hslot = true) :
    s.slotStat.toNat = 1 + if (s.slotAt s.win.hslot).pkvalid = true then
      2 + (s.slotAt s.win.hslot).cl.length * 2 ^ 8 else 0 := by
  have hlen := h.cl_le s.win.hslot
  have hlayout : (1#32 ||| 2#32 ||| BitVec.ofNat 32 (s.slotAt s.win.hslot).cl.length <<< 8).toNat =
      1 + (2 + (s.slotAt s.win.hslot).cl.length * 2 ^ 8) := by
    have hflags : (1#32 ||| 2#32).toNat = 3 := rfl
    rw [BitVec.or_comm, toNat_shiftLeft_or (by omega) (by omega)]
    omega
  rw [State.slotStat, if_pos hv]
  split_ifs
  · exact hlayout
  · rfl

/-- Settles O49: the three registers test `slotValid` of the selected slot first. -/
theorem slotInformationReads : Obligations.SlotInformationReads := by
  intro s hmem
  have hread : ∀ r : Reg, s.readAt r.offset = s.readReg r := readAt_offset s
  rw [← WinRegs.hslot_eq, ← State.slotValid_iff]
  refine ⟨fun hv => ⟨?_, ?_, ?_⟩, fun hv => ⟨?_, ?_, ?_⟩⟩
  · exact (congrArg BitVec.toNat (hread .slStat)).trans (State.toNat_slotStat hmem hv)
  · exact (hread .slId).trans (if_pos hv)
  · exact toNat_readAt_offset (r := .slPixcnt) (by decide) (if_pos hv)
  · exact (hread .slStat).trans (if_neg hv)
  · exact (hread .slId).trans (if_neg hv)
  · exact (hread .slPixcnt).trans (if_neg hv)

end Sys2Proof.Machine
end

section
/-! The decoder, the encoder and the opcode map agree (30_encoding R60 to R64). The encoder has the decoder as its inverse
on both sides; the rows of the map are the rows of the commands; and a row selects exactly the words of its commands, so
that two rows never select one word. -/

namespace Sys2Proof

open Sys2Proof.Machine

/-! ## Decoding the word of a command -/

@[simp] theorem opcField_encode (i : Instr) : opcField (encode i) = i.opcode := opcField_append _ _
@[simp] theorem rsvField_encode (i : Instr) : rsvField (encode i) = 0#8 := rsvField_append _ _
@[simp] theorem argField_encode (i : Instr) : argField (encode i) = i.arg := argField_append _ _

/-- The two formats of R61: a command is found in the `CS` table with its operand, or in the `C0` table with none. -/
theorem command_of_opcode (i : Instr) :
    csCommand i.opcode i.arg = some i ∨
    (csCommand i.opcode i.arg = none ∧ c0Command i.opcode = some i ∧ i.arg = 0#16) := by
  cases i with
  | aCommit _ | sCorr _ | sPeak _ => exact .inl rfl
  | _ => exact .inr ⟨rfl, rfl, rfl⟩

theorem decode_encode (i : Instr) : decode (encode i) = .ok i := by
  rw [decode, opcField_encode, rsvField_encode, argField_encode]
  rcases command_of_opcode i with hcs | ⟨hcs, hc0, harg⟩
  · simp only [hcs, if_true]
  · simp only [hcs, hc0, true_and, if_pos harg]

/-- Settles O1. Every command is well formed, so the premise is not needed. -/
theorem decodeOfEncodeIsTheCommand : Obligations.DecodeOfEncodeIsTheCommand :=
  fun i _ => decode_encode i

theorem decode_of_encode_eq {w : Word} {i : Instr} (h : encode i = w) : decode w = .ok i :=
  h ▸ decode_encode i

/-- Settles O3: each word is the word of its command. -/
theorem wordsOfTheMapDecode : Obligations.WordsOfTheMapDecode :=
  ⟨decode_of_encode_eq rfl, decode_of_encode_eq rfl, decode_of_encode_eq rfl, decode_of_encode_eq rfl,
    decode_of_encode_eq rfl, decode_of_encode_eq rfl, decode_of_encode_eq rfl, decode_of_encode_eq rfl⟩

/-! ## The row of a command -/

/-- The bits of `ARG` that the command's format requires to be zero (30_encoding R61). -/
def Instr.argMask : Instr → BitVec 16
  | .aCommit _ | .sCorr _ | .sPeak _ => 0#16
  | _ => 0xFFFF#16

/-- The row of a command: its opcode under a mask that leaves out the slot operand only (30_encoding R62). -/
def Instr.row (i : Instr) : OpRow where
  mnemonic := i.mnemonic
  pattern := i.opcode ++ (0#8 ++ 0#16)
  mask := 0xFF#8 ++ (0xFF#8 ++ i.argMask)

/-- The opcode map lists the rows of the fourteen commands; the row does not depend on the slot operand. -/
theorem opcodeMap_eq_map_row : opcodeMap =
    [.nop, .sreset, .cvtRgb2hcl, .cvtHcl2rgb, .quant, .hClear, .hAcc, .hSmooth, .pExtract, .aSeal, .matchBest,
      .aCommit 0#16, .sCorr 0#16, .sPeak 0#16].map Instr.row := by decide

theorem exists_row_eq_of_mem {r : OpRow} (h : r ∈ opcodeMap) : ∃ i : Instr, i.row = r := by
  rw [opcodeMap_eq_map_row] at h
  obtain ⟨i, -, hrow⟩ := List.mem_map.1 h
  exact ⟨i, hrow⟩

theorem row_mem_opcodeMap (i : Instr) : i.row ∈ opcodeMap := by
  rw [opcodeMap_eq_map_row]
  cases i with
  | aCommit _ => exact List.mem_map_of_mem (a := Instr.aCommit 0#16) (by decide)
  | sCorr _ => exact List.mem_map_of_mem (a := Instr.sCorr 0#16) (by decide)
  | sPeak _ => exact List.mem_map_of_mem (a := Instr.sPeak 0#16) (by decide)
  | _ => exact List.mem_map_of_mem (by decide)

theorem opcodeMap_nodup : opcodeMap.Nodup := by decide

/-! ## The words a row selects -/

theorem bitVec_append_inj {m n : Nat} {a b : BitVec m} {x y : BitVec n} : a ++ x = b ++ y ↔ a = b ∧ x = y := by
  refine ⟨fun h => ⟨?_, ?_⟩, fun ⟨ha, hx⟩ => by rw [ha, hx]⟩
  · rw [← BitVec.extractLsb'_append_eq_left (a := a) (b := x), h, BitVec.extractLsb'_append_eq_left]
  · rw [← BitVec.extractLsb'_append_eq_right (a := a) (b := x), h, BitVec.extractLsb'_append_eq_right]

/-- A word is a command's word when its three fields are the command's (30_encoding R60). -/
theorem encode_eq_iff {i : Instr} {w : Word} :
    encode i = w ↔ i.opcode = opcField w ∧ 0#8 = rsvField w ∧ i.arg = argField w := by
  rw [encode, ← bitVec_append_inj, ← bitVec_append_inj, word_eq_fields]

/-- A row tests the opcode, the reserved bits, and the bits of `ARG` that its format requires to be zero. -/
theorem row_selects_iff {i : Instr} {w : Word} : i.row.selects w = true ↔
    opcField w = i.opcode ∧ rsvField w = 0#8 ∧ argField w &&& i.argMask = 0#16 := by
  have hones : ∀ b : BitVec 8, b &&& 0xFF#8 = b := fun _ => BitVec.and_allOnes
  have hmask : w &&& i.row.mask = opcField w ++ (rsvField w ++ (argField w &&& i.argMask)) := by
    conv_lhs => rw [← word_eq_fields w]
    rw [Instr.row, BitVec.and_append, BitVec.and_append, hones, hones]
  rw [OpRow.selects, beq_iff_eq, hmask, Instr.row, bitVec_append_inj, bitVec_append_inj]

/-- A command's operand lies in the bits its format leaves free. -/
theorem arg_and_argMask (i : Instr) : i.arg &&& i.argMask = 0#16 := by
  cases i with
  | aCommit _ | sCorr _ | sPeak _ => exact BitVec.and_zero
  | _ => rfl

/-- Every operand in the bits a format leaves free is the operand of a command of the same row. -/
theorem exists_row_eq_arg_eq {i : Instr} {v : BitVec 16} (h : v &&& i.argMask = 0#16) :
    ∃ j : Instr, j.row = i.row ∧ j.arg = v := by
  cases i with
  | aCommit _ => exact ⟨.aCommit v, rfl, rfl⟩
  | sCorr _ => exact ⟨.sCorr v, rfl, rfl⟩
  | sPeak _ => exact ⟨.sPeak v, rfl, rfl⟩
  | _ => exact ⟨_, rfl, h.symm.trans BitVec.and_allOnes⟩

/-- A row of the map selects exactly the words of its commands (30_encoding R62). -/
theorem selects_iff_exists_encode {r : OpRow} (hr : r ∈ opcodeMap) {w : Word} :
    r.selects w = true ↔ ∃ i : Instr, i.row = r ∧ encode i = w := by
  constructor
  · intro hsel
    obtain ⟨i, rfl⟩ := exists_row_eq_of_mem hr
    obtain ⟨j, hrow, harg⟩ := exists_row_eq_arg_eq (row_selects_iff.1 hsel).2.2
    rw [← hrow] at hsel
    obtain ⟨hopc, hrsv, -⟩ := row_selects_iff.1 hsel
    exact ⟨j, hrow, encode_eq_iff.2 ⟨hopc.symm, hrsv.symm, harg⟩⟩
  · rintro ⟨i, rfl, rfl⟩
    exact row_selects_iff.2 ⟨opcField_encode i, rsvField_encode i, by rw [argField_encode, arg_and_argMask]⟩

/-- The word of a command selects the command's row and no other, because decoding gives one command only. -/
theorem filter_selects_encode (i : Instr) : opcodeMap.filter (fun r => r.selects (encode i)) = [i.row] := by
  have honly : ∀ r ∈ opcodeMap, r.selects (encode i) = decide (r = i.row) := by
    intro r hr
    rw [Bool.eq_iff_iff, decide_eq_true_iff, selects_iff_exists_encode hr]
    constructor
    · rintro ⟨j, rfl, hj⟩
      have hji : Except.ok j = Except.ok i := (decode_of_encode_eq hj).symm.trans (decode_encode i)
      rw [Except.ok.inj hji]
    · exact fun hrow => ⟨i, hrow.symm, rfl⟩
  rw [List.filter_congr honly, List.filter_eq, List.count_eq_one_of_mem opcodeMap_nodup (row_mem_opcodeMap i)]
  rfl

/-! ## Illegal words -/

/-- An illegal word selects no row (30_encoding R63). -/
theorem not_selects_of_decode_error {w : Word} {e : DecodeError} (h : decode w = .error e) {r : OpRow}
    (hr : r ∈ opcodeMap) : w &&& r.mask ≠ r.pattern := by
  intro hsel
  obtain ⟨i, -, hi⟩ := (selects_iff_exists_encode hr).1 (beq_iff_eq.2 hsel)
  rw [decode_of_encode_eq hi] at h
  cases h

/-- An illegal word written to `CMD` in a machine with no fault raises `ERR_ILLEGAL_CMD` with the word (30_encoding R63). -/
theorem access_cmd_of_decode_error {w : Word} {e : DecodeError} (h : decode w = .error e) {s : State}
    (hs : s.status.err = false) : s.access (.wr .word 0x04 w) =
      .next (s.setStatus { s.status with err := true, errCode := ErrCode.illegalCmd.code, errInfo := w }) := by
  rw [access_wr_cmd, State.writeCmd, h]
  simp only [State.command_eq, State.gate_of_clear hs, State.raise_of_clear hs]

/-- Settles O2: the decoder's answer decides between the two cases. -/
theorem everyWordIsOneRowOrRaisesIllegal : Obligations.EveryWordIsOneRowOrRaisesIllegal := by
  intro w
  cases hdecode : decode w with
  | ok i =>
    obtain rfl := encode_of_decode hdecode
    exact .inl ⟨i, i.row, rfl, filter_selects_encode i, rfl, rfl⟩
  | error e =>
    exact .inr ⟨fun _ => not_selects_of_decode_error hdecode, fun _ => access_cmd_of_decode_error hdecode⟩

end Sys2Proof
end

section
/-! The colour converter, numerics profile P0 (40_color_convert R82 to R90, R95 to R97, R99): the branches of `flab`,
the ranges of the forward path, the search behind `enc`, and what the two conversion commands write or raise. -/

namespace Sys2Proof.Machine

/-! ## `flab` (40_color_convert R83) -/

theorem flab_of_above {t : Nat} (h : 216 * 2 ^ 31 < t * 24389) : flab t = icbrt (t * 2 ^ 17) := if_pos h

theorem flab_of_below {t : Nat} (h : ¬ 216 * 2 ^ 31 < t * 24389) :
    flab t = (24389 * t + 432 * 2 ^ 31) / (3132 * 2 ^ 15) := if_neg h

/-- In the cube-root branch a value is known by its two bounds. -/
theorem flab_eq_of_cube_bounds {t f : Nat} (h : 216 * 2 ^ 31 < t * 24389) (hle : f ^ 3 ≤ t * 2 ^ 17)
    (hlt : t * 2 ^ 17 < (f + 1) ^ 3) : flab t = f :=
  (flab_of_above h).trans (iroot_unique (by decide) hle hlt)

/-- The least value of the cube-root branch. -/
theorem flab_switch_above : flab 19019086 = 13559 :=
  flab_eq_of_cube_bounds (by norm_num) (by norm_num) (by norm_num)

/-- The greatest value of the linear branch. -/
theorem flab_switch_below : flab 19019085 = 13559 := flab_of_below (by norm_num)

theorem flab_two_pow_31 : flab (2 ^ 31) = 65536 :=
  flab_eq_of_cube_bounds (by norm_num) (by norm_num) (by norm_num)

theorem flab_le_flab_of_above {a b : Nat} (ha : 216 * 2 ^ 31 < a * 24389) (hab : a ≤ b) : flab a ≤ flab b := by
  have hb : 216 * 2 ^ 31 < b * 24389 := ha.trans_le (Nat.mul_le_mul_right _ hab)
  rw [flab_of_above ha, flab_of_above hb]
  exact iroot_mono (by decide) (Nat.mul_le_mul_right _ hab)

theorem flab_le_flab_of_below {a b : Nat} (hb : ¬ 216 * 2 ^ 31 < b * 24389) (hab : a ≤ b) : flab a ≤ flab b := by
  have ha : ¬ 216 * 2 ^ 31 < a * 24389 := fun ha => hb (ha.trans_le (Nat.mul_le_mul_right _ hab))
  rw [flab_of_below ha, flab_of_below hb]
  exact Nat.div_le_div_right (by omega)

/-- `flab` never decreases: each branch rises, and across the switch the two branches meet in one value. -/
theorem flab_mono {a b : Nat} (hab : a ≤ b) : flab a ≤ flab b := by
  by_cases ha : 216 * 2 ^ 31 < a * 24389
  · exact flab_le_flab_of_above ha hab
  by_cases hb : 216 * 2 ^ 31 < b * 24389
  · calc flab a ≤ flab 19019085 := flab_le_flab_of_below (by norm_num) (by omega)
      _ = flab 19019086 := flab_switch_below.trans flab_switch_above.symm
      _ ≤ flab b := flab_le_flab_of_above (by norm_num) (by omega)
  · exact flab_le_flab_of_below hb hab

/-- Settles O13: the cube-root branch is `icbrt_spec`, the linear one a floor. -/
theorem flabBranchesAndMonotone : Obligations.FlabBranchesAndMonotone := by
  refine ⟨fun t _ habove => ?_, fun t hbelow => ?_, flab_of_below (by norm_num), flab_two_pow_31, flab_switch_below,
    flab_switch_above, fun a b hab _ => flab_mono hab⟩
  · rw [flab_of_above habove]
    exact icbrt_spec _
  · rw [flab_of_below hbelow]
    exact ⟨Nat.div_mul_le_self _ _, (Nat.div_lt_iff_lt_mul (by norm_num)).1 (Nat.lt_succ_self _)⟩

/-! ## `enc` (40_color_convert R95) -/

theorem linTable_length : linTable.length = 256 := by
  rw [linTable, List.length_append, List.length_append, List.length_append]
  rfl

/-- `LIN` is strictly increasing (40_color_convert R95). -/
theorem linTable_isChain : linTable.IsChain (· < ·) := by
  rw [linTable, List.isChain_append, List.isChain_append, List.isChain_append]
  simp [linA, linB, linC, linD]

theorem lin_lt_lin {u v : Nat} (huv : u < v) (hv : v ≤ 255) : lin u < lin v := by
  have hlen : v < linTable.length := by rw [linTable_length]; omega
  rw [lin, lin, List.getD_eq_getElem _ _ (huv.trans hlen), List.getD_eq_getElem _ _ hlen]
  exact List.pairwise_iff_getElem.1 (List.isChain_iff_pairwise.1 linTable_isChain) u v _ hlen huv

/-- Among the entries of `LIN` below `n`, entry `k` is the first of those nearest to `x`. -/
structure IsNearestBelow (n x k : Nat) : Prop where
  lt : k < n
  le : ∀ v < n, absDiff (lin k) x ≤ absDiff (lin v) x
  lt_of_lt : ∀ v < k, absDiff (lin k) x < absDiff (lin v) x

theorem isNearestBelow_one (x : Nat) : IsNearestBelow 1 x 0 where
  lt := Nat.one_pos
  le v hv := by rw [Nat.lt_one_iff.1 hv]
  lt_of_lt := nofun

/-- A strictly nearer entry takes over. -/
theorem IsNearestBelow.take {n x k : Nat} (h : IsNearestBelow n x k) (hn : absDiff (lin n) x < absDiff (lin k) x) :
    IsNearestBelow (n + 1) x n where
  lt := Nat.lt_succ_self n
  le v hv := by
    rcases Nat.lt_succ_iff_lt_or_eq.1 hv with hlt | rfl
    · exact hn.le.trans (h.le v hlt)
    · exact le_rfl
  lt_of_lt v hv := hn.trans_le (h.le v hv)

/-- An entry no nearer leaves the first nearest where it is. -/
theorem IsNearestBelow.keep {n x k : Nat} (h : IsNearestBelow n x k) (hn : ¬ absDiff (lin n) x < absDiff (lin k) x) :
    IsNearestBelow (n + 1) x k where
  lt := Nat.lt_succ_of_lt h.lt
  le v hv := by
    rcases Nat.lt_succ_iff_lt_or_eq.1 hv with hlt | rfl
    · exact h.le v hlt
    · exact Nat.le_of_not_lt hn
  lt_of_lt := h.lt_of_lt

/-- The first entry of the rest of `LIN` from index `v` is `LIN[v]`. -/
theorem lin_of_drop {v y : Nat} {ys : List Nat} (h : linTable.drop v = y :: ys) : lin v = y := by
  rw [lin, List.getD_eq_getElem?_getD, ← List.head?_drop, h]
  rfl

/-- The search goes through the rest of `LIN` and ends with the first nearest of all entries it has seen. -/
theorem encFrom_isNearestBelow {x : Nat} : ∀ (ys : List Nat) {v best : Nat}, linTable.drop v = ys →
    IsNearestBelow v x best → IsNearestBelow (v + ys.length) x (encFrom x ys v best (absDiff (lin best) x))
  | [], _, _, _, h => h
  | y :: ys, v, best, hdrop, h => by
    have hrest : linTable.drop (v + 1) = ys := by rw [← List.tail_drop, hdrop]; rfl
    have hlen : v + (y :: ys).length = v + 1 + ys.length := by rw [List.length_cons]; omega
    rw [encFrom, hlen, ← lin_of_drop hdrop]
    split
    case isTrue hnear => exact encFrom_isNearestBelow ys hrest (h.take hnear)
    case isFalse hfar => exact encFrom_isNearestBelow ys hrest (h.keep hfar)

theorem enc_isNearest (x : Nat) : IsNearestBelow 256 x (enc x) := by
  have hfirst : enc x = encFrom x (linTable.drop 1) 1 0 (absDiff (lin 0) x) := if_pos (by simp [absDiff])
  have hlen : 1 + (linTable.drop 1).length = 256 := by rw [List.length_drop, linTable_length]
  rw [hfirst, ← hlen]
  exact encFrom_isNearestBelow _ rfl (isNearestBelow_one x)

theorem enc_le (x : Nat) : enc x ≤ 255 := Nat.le_of_lt_succ (enc_isNearest x).lt

theorem absDiff_self (a : Nat) : absDiff a a = 0 := by rw [absDiff, Nat.sub_self]

theorem enc_lin {v : Nat} (hv : v ≤ 255) : enc (lin v) = v := by
  have hle : absDiff (lin (enc (lin v))) (lin v) ≤ 0 :=
    absDiff_self (lin v) ▸ (enc_isNearest (lin v)).le v (Nat.lt_succ_of_le hv)
  have heq : lin (enc (lin v)) = lin v := by rw [absDiff] at hle; omega
  rcases Nat.lt_trichotomy (enc (lin v)) v with hlt | heq' | hgt
  · exact absurd heq (lin_lt_lin hlt hv).ne
  · exact heq'
  · exact absurd heq (lin_lt_lin hgt (enc_le _)).ne'

/-- Were `enc y < enc x` for `x ≤ y`, the lower entry would be strictly further from `x` but no further from `y`. -/
theorem enc_mono {x y : Nat} (hxy : x ≤ y) : enc x ≤ enc y := by
  by_contra hcross
  have hlt : enc y < enc x := Nat.lt_of_not_le hcross
  have hentries : lin (enc y) < lin (enc x) := lin_lt_lin hlt (enc_le x)
  have hfar : absDiff (lin (enc x)) x < absDiff (lin (enc y)) x := (enc_isNearest x).lt_of_lt _ hlt
  have hnear : absDiff (lin (enc y)) y ≤ absDiff (lin (enc x)) y := (enc_isNearest y).le _ (enc_isNearest x).lt
  simp only [absDiff] at hfar hnear
  omega

/-- Settles O14: the search keeps the first nearest entry, and `LIN` rises strictly. -/
theorem encIsTheNearestEntry : Obligations.EncIsTheNearestEntry :=
  ⟨fun x _ => ⟨enc_le x, fun v hv => (enc_isNearest x).le v (Nat.lt_succ_of_le hv), (enc_isNearest x).lt_of_lt⟩,
    fun _ => enc_lin, fun _ _ hxy _ => enc_mono hxy⟩

/-! ## The forward path (40_color_convert R84 to R90) -/

theorem asr_nonneg {a : Int} (h : 0 ≤ a) (k : Nat) : 0 ≤ asr a k := Int.ediv_nonneg h (by positivity)

theorem hue7_range (aq bq c7 : Int) : 0 ≤ hue7 aq bq c7 ∧ hue7 aq bq c7 ≤ 46079 := by
  rw [hue7]
  split
  · decide
  · have hmod := fmod_bounds (by decide : (0 : Int) < 46080) (asr (fmod (rawAngle aq bq) (360 * deg) + 256) 9)
    omega

theorem chroma7_range (aq bq : Int) : 0 ≤ chroma7 aq bq ∧ chroma7 aq bq ≤ 32767 :=
  ⟨le_min (by decide) (asr_nonneg (by positivity) 9), min_le_left _ _⟩

theorem lightness7_range (fy : Nat) : 0 ≤ lightness7 (labL fy) ∧ lightness7 (labL fy) ≤ 12800 :=
  have hlab : 0 ≤ labL fy := le_max_left _ _
  ⟨le_min (by decide) (asr_nonneg (by omega) 9), min_le_left _ _⟩

/-- The legal ranges of the HCL registers (10_state R15), for a raw colour. -/
structure LegalHcl (p : Triple) : Prop where
  hue : 0 ≤ p.1 ∧ p.1 ≤ 46079
  chroma : 0 ≤ p.2.1 ∧ p.2.1 ≤ 32767
  light : 0 ≤ p.2.2 ∧ p.2.2 ≤ 12800

/-- The ranges of R99 that follow from the form of R85, R86 and R88. -/
theorem rgb2hcl_legal (r g b : Nat) : LegalHcl (rgb2hcl r g b) :=
  ⟨hue7_range _ _ _, chroma7_range _ _, lightness7_range _⟩

theorem toNat_ofInt_of_range {x : Int} (hge : 0 ≤ x) (hlt : x < 65536) : ((BitVec.ofInt 16 x).toNat : Int) = x := by
  rw [BitVec.toNat_ofInt]
  omega

/-- The HCL registers hold a legal colour without loss. -/
theorem DataRegs.hcl_withHcl (x : DataRegs) {p : Triple} (h : LegalHcl p) : (x.withHcl p).hcl = p := by
  obtain ⟨⟨hh0, hh⟩, ⟨hc0, hc⟩, ⟨hl0, hl⟩⟩ := h
  exact Prod.ext (toNat_ofInt_of_range hh0 (by omega))
    (Prod.ext (toNat_ofInt_of_range hc0 (by omega)) (toNat_ofInt_of_range hl0 (by omega)))

/-- The bytes of a pixel word (10_state R14). -/
theorem pixelHcl_eq (w : Word) :
    pixelHcl w = rgb2hcl (w.toNat % 256) (w.toNat / 256 % 256) (w.toNat / 65536 % 256) := by
  rw [pixelHcl, pixR, pixG, pixB, BitVec.extractLsb'_toNat, BitVec.extractLsb'_toNat, BitVec.extractLsb'_toNat,
    Nat.shiftRight_eq_div_pow, Nat.shiftRight_eq_div_pow, Nat.shiftRight_eq_div_pow, Nat.pow_zero, Nat.div_one]

/-- Settles O9: the colour is legal, so its registers hold it. -/
theorem rgb2HclWritesTheColour : Obligations.Rgb2HclWritesTheColour := by
  intro s herr
  have hlegal : LegalHcl (pixelHcl s.data.pixin) := rgb2hcl_legal _ _ _
  have hheld : (s.data.withHcl (pixelHcl s.data.pixin)).hcl = pixelHcl s.data.pixin := s.data.hcl_withHcl hlegal
  obtain ⟨⟨-, hh⟩, ⟨-, hc⟩, ⟨-, hl⟩⟩ := hheld.symm ▸ hlegal
  refine ⟨s.setData (s.data.withHcl (pixelHcl s.data.pixin)), ?_, rfl, hheld.trans (pixelHcl_eq _),
    Int.ofNat_le.1 hh, Int.ofNat_le.1 hc, Int.ofNat_le.1 hl⟩
  rw [exec_cvtRgb2hcl, State.gate_of_clear herr]

/-! ## Greys (40_color_convert R82, R99) -/

/-- The channel weights of every row of `MF` add up to 32768, so a grey has its own level on each axis. -/
theorem tristimulus_grey {row : Nat × Nat × Nat} (hrow : row.1 + row.2.1 + row.2.2 = 32768) (v : Nat) :
    tristimulus row v v v = 32768 * lin v := by
  rw [tristimulus, ← Nat.add_mul, ← Nat.add_mul, hrow]

theorem labA_self (f : Nat) : labA f f = 0 := by rw [labA, sub_self, mul_zero]

theorem labB_self (f : Nat) : labB f f = 0 := by rw [labB, sub_self, mul_zero]

theorem chroma7_zero : chroma7 0 0 = 0 := by decide

theorem hclOfLab_grey (f : Nat) : hclOfLab f f f = (0, 0, lightness7 (labL f)) := by
  rw [hclOfLab, labA_self, labB_self, chroma7_zero, hue7, if_pos rfl]

theorem rgb2hcl_grey (v : Nat) : rgb2hcl v v v = (0, 0, lightness7 (labL (flab (32768 * lin v)))) := by
  rw [rgb2hcl, tristimulus_grey (row := mfX) rfl, tristimulus_grey (row := mfY) rfl, tristimulus_grey (row := mfZ) rfl,
    hclOfLab_grey]

/-- Settles O12: the three axes of a grey agree, so that both `a` and `b` vanish. -/
theorem greysHaveNoChromaAndHueZero : Obligations.GreysHaveNoChromaAndHueZero := by
  intro v _
  rw [rgb2hcl_grey]
  exact ⟨rfl, rfl, rfl⟩

/-! ## The operand check and the pixel written (40_color_convert R97, 41_quantize R111) -/

theorem DataRegs.hclLegal_iff (x : DataRegs) :
    x.hclLegal = true ↔ x.hclH.toNat ≤ 46079 ∧ x.hclC.toNat ≤ 32767 ∧ x.hclL.toNat ≤ 12800 := by
  rw [DataRegs.hclLegal, Bool.and_eq_true, Bool.and_eq_true, decide_eq_true_iff, decide_eq_true_iff,
    decide_eq_true_iff, and_assoc]

/-- A failed check of a command, with no fault latched, raises its fault with the command word (60_exceptions R193). -/
theorem State.gate_require_of_false {s : State} (herr : s.status.err = false) {ok : Bool} (hok : ok = false)
    (c : ErrCode) (i : Instr) (k : State) : s.gate (s.require ok c i k) =
      s.setStatus { s.status with err := true, errCode := c.code, errInfo := encode i } := by
  rw [State.gate_of_clear herr, hok, State.require_false, State.raise_of_clear herr]

/-- Settles O11: both commands begin with the one check. -/
theorem illegalColourRaisesBadOperand : Obligations.IllegalColourRaisesBadOperand := by
  intro s herr hrange
  have hillegal : s.data.hclLegal = false := by
    rw [Bool.eq_false_iff, Ne, DataRegs.hclLegal_iff]
    omega
  constructor
  · rw [exec_cvtHcl2rgb, State.gate_require_of_false herr hillegal]
    rfl
  · rw [exec_quant, State.gate_require_of_false herr hillegal]
    rfl

theorem toNat_append_eq_add {m n : Nat} (x : BitVec m) (y : BitVec n) :
    (x ++ y).toNat = x.toNat * 2 ^ n + y.toNat := by
  rw [BitVec.toNat_append, Nat.shiftLeft_eq, Nat.mul_comm, Nat.two_pow_add_eq_or_of_lt y.isLt]

/-- The value of a pixel word (10_state R14). -/
theorem toNat_pixelWord {r g b a : Nat} (hr : r ≤ 255) (hg : g ≤ 255) (hb : b ≤ 255) (ha : a ≤ 255) :
    (pixelWord r g b a).toNat = r + g * 2 ^ 8 + b * 2 ^ 16 + a * 2 ^ 24 := by
  rw [pixelWord, toNat_append_eq_add, toNat_append_eq_add, toNat_append_eq_add, BitVec.toNat_ofNat, BitVec.toNat_ofNat,
    BitVec.toNat_ofNat, BitVec.toNat_ofNat]
  omega

/-- Settles O10: each channel is an index `enc` answers. -/
theorem hcl2RgbWritesThePixel : Obligations.Hcl2RgbWritesThePixel := by
  intro s herr hh hc hl
  have hlegal : s.data.hclLegal = true := s.data.hclLegal_iff.2 ⟨hh, hc, hl⟩
  have hr : s.data.rgb.1 ≤ 255 := enc_le _
  have hg : s.data.rgb.2.1 ≤ 255 := enc_le _
  have hb : s.data.rgb.2.2 ≤ 255 := enc_le _
  refine ⟨s.setData { s.data with pixout := pixelWord s.data.rgb.1 s.data.rgb.2.1 s.data.rgb.2.2 255 },
    s.data.rgb.1, s.data.rgb.2.1, s.data.rgb.2.2, ?_, rfl, rfl, hr, hg, hb, toNat_pixelWord hr hg hb le_rfl⟩
  rw [exec_cvtHcl2rgb, State.gate_of_clear herr, hlegal, State.require_true]

end Sys2Proof.Machine
end

section
/-! The quantizer (41_quantize R110 to R112): what a bucket is on naturals, where its clamp does not bind, that it never
decreases, and the word `QUANT` writes. -/

namespace Sys2Proof.Machine

/-! ## Buckets (41_quantize R110, R112) -/

/-- On naturals a bucket is a floor, clamped to the top bucket (41_quantize R110). -/
theorem toNat_bucket (m v : Nat) {d : Nat} (hd : 0 < d) : (bucket m v d).toNat = min (d - 1) (v * d / m) := by
  have hcast : bucket m v d = (min (d - 1) (v * d / m) : Nat) := by
    rw [bucket, fdiv]
    push_cast [Nat.cast_sub hd]
    rfl
  rw [hcast, Int.toNat_natCast]

/-- Below the channel maximum the clamp does not bind. -/
theorem min_pred_mul_div {m v d : Nat} (hd : 0 < d) (hv : v < m) : min (d - 1) (v * d / m) = v * d / m := by
  have hlt : v * d / m < d := Nat.div_lt_of_lt_mul (Nat.mul_lt_mul_of_pos_right hv hd)
  exact min_eq_right (Nat.le_sub_one_of_lt hlt)

/-- Product, floor and clamp are non-decreasing in the value (41_quantize R112). -/
theorem bucket_mono {m v w d : Int} (hm : 0 < m) (hd : 0 ≤ d) (hvw : v ≤ w) : bucket m v d ≤ bucket m w d :=
  min_le_min_left _ (fdiv_mono hm (mul_le_mul_of_nonneg_right hvw hd))

/-- Settles O16: each channel of `quant` is one `bucket`. -/
theorem quantizationIsMonotonic : Obligations.QuantizationIsMonotonic := by
  intro p q d _ _
  have hmono {m v w : Int} (hm : 0 < m) (hvw : v ≤ w) : (bucket m v d).toNat ≤ (bucket m w d).toNat :=
    Int.toNat_le_toNat (bucket_mono hm (Int.natCast_nonneg d) hvw)
  exact ⟨hmono (by decide), hmono (by decide), hmono (by decide)⟩

/-! ## The word `QUANT` writes (41_quantize R111) -/

/-- The buckets of the colour the HCL registers hold: a legal hue is below its channel maximum, so only chroma and
lightness can clamp. -/
theorem quant_hcl {x : DataRegs} (hhue : x.hclH.toNat ≤ 46079) {d : Nat} (hd : 0 < d) :
    quant x.hcl d = (x.hclH.toNat * d / 46080, min (d - 1) (x.hclC.toNat * d / 17152),
      min (d - 1) (x.hclL.toNat * d / 12800)) := by
  have hclamp : min (d - 1) (x.hclH.toNat * d / 46080) = x.hclH.toNat * d / 46080 :=
    min_pred_mul_div hd (Nat.lt_succ_of_le hhue)
  exact Prod.ext ((toNat_bucket 46080 _ hd).trans hclamp) (Prod.ext (toNat_bucket 17152 _ hd) (toNat_bucket 12800 _ hd))

/-- Buckets at a legal depth fit the fields of `RED` (10_state R16). -/
theorem toNat_reducedWord_quant (p : Int × Int × Int) {d : Nat} (hd : 0 < d) (hmax : d ≤ 32) :
    (reducedWord (quant p d)).toNat = (quant p d).1 * 2 ^ 16 + (quant p d).2.1 * 2 ^ 8 + (quant p d).2.2 := by
  obtain ⟨hh, hc, hl⟩ := quant_lt p hd
  exact toNat_bucketWord (by omega) (by omega) (by omega)

/-- Settles O15: the operand check passes, and the buckets fit the fields of `RED`. -/
theorem quantWritesTheBuckets : Obligations.QuantWritesTheBuckets := by
  intro s herr hmin hmax hh hc hl
  have hd : 0 < s.d := by omega
  have hlegal : s.data.hclLegal = true := s.data.hclLegal_iff.2 ⟨hh, hc, hl⟩
  refine ⟨s.setData { s.data with red := reducedWord (quant s.data.hcl s.d) }, ?_, rfl, ?_⟩
  · rw [exec_quant, State.gate_of_clear herr, hlegal, State.require_true]
  · exact (toNat_reducedWord_quant s.data.hcl hd hmax).trans (by rw [quant_hcl hh hd])

end Sys2Proof.Machine
end

section
/-! The histogram builder and smoother (42_histogram R120 to R129): every step keeps the counts and the masses; what
`H.CLEAR`, `H.ACC`, `PIXPUSH` and `H.SMOOTH` do and which checks they make; and that a listed sum over `H` is the triple sum
over all source buckets. -/

namespace Sys2Proof.Machine

/-! ## Steps keep counts and masses (42_histogram R124, R129; 44_peak R156, R158) -/

/-- Settles O57: the counts stand on the legal registers, which bound the pixel's cell, and on the canonical `H`; the three
hold at reset and every change keeps them. -/
theorem stepKeepsCounts : Obligations.StepKeepsCounts := by
  intro s t hregs hmem hcounts hstep
  obtain ⟨-, -, hcounts'⟩ := step_keeps (p := fun u => u.RegsOk ∧ u.MemOk ∧ u.CountsOk)
    (fun n => ⟨resetWith_regsOk n, resetWith_memOk n, resetWith_countsOk n⟩)
    (fun _ _ h ⟨hr, hm, hc⟩ => ⟨h.regsOk hr, h.memOk hr hm, h.countsOk hr hm hc⟩) ⟨hregs, hmem, hcounts⟩ hstep
  exact hcounts'

/-- Settles O58: smoothing gives the tile its mass, extraction and commit copy it; the five invariants together hold at reset
and every change keeps them. -/
theorem stepKeepsMass : Obligations.StepKeepsMass := by
  intro s t hregs hmem hflags hcounts hmass hstep
  obtain ⟨-, -, -, -, hmass'⟩ :=
    step_keeps (p := fun u => u.RegsOk ∧ u.MemOk ∧ u.FlagsOk ∧ u.CountsOk ∧ u.MassOk)
      (fun n => ⟨resetWith_regsOk n, resetWith_memOk n, resetWith_flagsOk n, resetWith_countsOk n, resetWith_massOk n⟩)
      (fun _ _ h ⟨hr, hm, hf, hc, hs⟩ =>
        ⟨h.regsOk hr, h.memOk hr hm, h.flagsOk hm.slots_wf hf, h.countsOk hr hm hc, h.massOk hr hm hf hc hs⟩)
      ⟨hregs, hmem, hflags, hcounts, hmass⟩ hstep
  exact hmass'

/-! ## The builder (42_histogram R120 to R123) -/

/-- Settles O17: the cells below `DEPTH^3` are replaced by those of the empty memory. -/
theorem hClearEmptiesTheTile : Obligations.HClearEmptiesTheTile := by
  intro s herr
  exact ⟨_, by rw [exec_hClear, State.gate_of_clear herr], rfl, Sparse.read_replaceBelow s.ncell [] s.h⟩

/-- The colour of a pixel does not depend on its alpha byte (42_histogram R122). -/
theorem pixelHcl_and_mask (w : Word) : pixelHcl (w &&& 0x00FFFFFF#32) = pixelHcl w := by
  have hmask : (w &&& 0x00FFFFFF#32).toNat = w.toNat % 2 ^ 24 := by
    rw [BitVec.toNat_and]
    exact Nat.and_two_pow_sub_one_eq_mod w.toNat 24
  have hred : w.toNat % 2 ^ 24 % 256 = w.toNat % 256 := by omega
  have hgreen : w.toNat % 2 ^ 24 / 256 % 256 = w.toNat / 256 % 256 := by omega
  have hblue : w.toNat % 2 ^ 24 / 65536 % 256 = w.toNat / 65536 % 256 := by omega
  rw [pixelHcl_eq, pixelHcl_eq, hmask, hred, hgreen, hblue]

theorem pixelCell_and_mask (w : Word) (d : Nat) : pixelCell (w &&& 0x00FFFFFF#32) d = pixelCell w d := by
  rw [pixelCell, pixelHcl_and_mask, pixelCell]

/-- With no fault latched the command is its effect (60_exceptions R193). -/
theorem exec_hAcc_of_clear {s : State} (herr : s.status.err = false) : exec .hAcc s = .next s.accumulate := by
  rw [exec_hAcc, State.gate_of_clear herr]

/-- Without its two faults `H.ACC` counts the pixel (42_histogram R121). -/
theorem State.accumulate_of_room {s : State} (hinit : s.status.hInit = true) (hroom : s.pixcnt.toNat ≠ 2 ^ 24 - 1) :
    s.accumulate = s.count (pixelCell s.data.pixin s.d) := by
  rw [State.accumulate, hinit, State.require_true, decide_eq_true hroom, State.require_true]

/-- The pixel count grows by one while it has room (42_histogram R121). -/
theorem State.toNat_count_pixcnt {s : State} (hroom : s.pixcnt.toNat ≠ 2 ^ 24 - 1) (i : Nat) :
    (s.count i).pixcnt.toNat = s.pixcnt.toNat + 1 := by
  have hlt := s.pixcnt.isLt
  rw [State.count_pixcnt, BitVec.toNat_add, BitVec.toNat_ofNat, Nat.add_mod_mod, Nat.mod_eq_of_lt (by omega)]

/-- Settles O18: both checks pass, so the step is the count of the pixel's cell. -/
theorem hAccCountsThePixel : Obligations.HAccCountsThePixel := by
  intro s herr hinit hroom hwf
  refine ⟨s.count (pixelCell s.data.pixin s.d), ?_, rfl, State.toNat_count_pixcnt hroom _, fun i => ?_,
    fun d => (pixelCell_and_mask _ d).symm⟩
  · rw [exec_hAcc_of_clear herr, State.accumulate_of_room hinit hroom]
  · rw [State.read_count_h hwf]
    split
    · next hi => rw [hi]
    · rfl

/-- `H.ACC` writes no data register, faulting or not (42_histogram R121). -/
theorem State.accumulate_data (s : State) : s.accumulate.data = s.data := by
  rcases s.accumulate_cases with ⟨-, h⟩ | ⟨-, -, h⟩ | ⟨-, -, h⟩ <;> rw [h]
  · exact State.raise_data _ _ _
  · exact State.raise_data _ _ _
  · exact State.count_data _ _

/-- A fault of `H.ACC` records its command word, also when `PIXPUSH` runs it (42_histogram R123). -/
theorem State.accumulate_errInfo {s : State} (herr : s.status.err = false) (hfault : s.accumulate.status.err = true) :
    s.accumulate.status.errInfo = encode .hAcc := by
  rcases s.accumulate_cases with ⟨-, h⟩ | ⟨-, -, h⟩ | ⟨-, -, h⟩
  · rw [h, State.raise_of_clear herr]
    rfl
  · rw [h, State.raise_of_clear herr]
    rfl
  · rw [h, State.count_status, Status.accumulated_err, herr] at hfault
    cases hfault

/-- Settles O19: the gate drops the write while a fault is latched; else installing `PIXPUSH` is what `H.ACC` does with the
new `PIXIN`. -/
theorem pixPushIsPixinThenHAcc : Obligations.PixPushIsPixinThenHAcc := by
  intro s v
  refine ⟨fun herr => ?_, fun herr => ?_⟩
  · have hwrite : s.access (.wr .word 0x14 v) = .next (s.setData { s.data with pixin := v }).accumulate :=
      access_wr_legal (r := .pixpush) herr (by decide) (by decide) rfl
    have hclear : (s.setData { s.data with pixin := v }).status.err = false := herr
    refine ⟨hwrite.trans (exec_hAcc_of_clear hclear).symm, fun t ht => ?_⟩
    rw [hwrite] at ht
    cases ht
    exact ⟨congrArg DataRegs.pixin (State.accumulate_data _), State.accumulate_errInfo hclear⟩
  · exact (access_wr_reg s (r := .pixpush) (by decide) v).trans (by rw [State.gate_of_err herr])

/-! ## The checks (42_histogram R121, R127, R128; 44_peak R153) -/

/-- Settles O20: each clause fails the first check of its command that it names. -/
theorem tileCommandChecks : Obligations.TileCommandChecks := by
  intro s herr
  refine ⟨fun hinit => ⟨?_, ?_⟩, fun hinit hfull => ?_, fun hinit htaps => ?_, fun hvalid => ?_⟩
  · rw [exec_hAcc, State.accumulate, State.gate_require_of_false herr hinit]
    rfl
  · rw [exec_hSmooth, State.gate_require_of_false herr hinit]
    rfl
  · rw [exec_hAcc, State.accumulate, hinit, State.require_true,
      State.gate_require_of_false herr (decide_eq_false (not_not_intro hfull))]
    rfl
  · have hkernel : decide (s.cfg.tapSum = Config.tapOne) = false := decide_eq_false htaps
    rw [exec_hSmooth, hinit, State.require_true, State.gate_require_of_false herr hkernel]
    rfl
  · rw [exec_pExtract, State.gate_require_of_false herr hvalid]
    rfl

/-! ## Cells and buckets (00_scope R9) -/

theorem cell_cellTriple (d i : Nat) : cell d (cellTriple d i).1 (cellTriple d i).2.1 (cellTriple d i).2.2 = i := by
  rw [cell, cellTriple, Nat.div_add_mod', Nat.div_add_mod']

theorem cellTriple_cell {d c l : Nat} (h : Nat) (hc : c < d) (hl : l < d) : cellTriple d (cell d h c l) = (h, c, l) := by
  have hquot : ∀ a b, b < d → (a * d + b) / d = a ∧ (a * d + b) % d = b := fun a b hb => by
    rw [Nat.mul_comm, Nat.mul_add_div (by omega), Nat.div_eq_of_lt hb, Nat.mul_add_mod, Nat.mod_eq_of_lt hb]
    exact ⟨rfl, rfl⟩
  obtain ⟨hrow, hlast⟩ := hquot (h * d + c) l hl
  obtain ⟨hfirst, hmid⟩ := hquot h c hc
  rw [cellTriple, cell, hrow, hlast, hfirst, hmid]

/-- A sum over all cells is the triple sum over their buckets. -/
theorem sum_range_cellTriple (d : Nat) (f : Nat → Nat → Nat → Nat) :
    ∑ i ∈ Finset.range (d * d * d), f (cellTriple d i).1 (cellTriple d i).2.1 (cellTriple d i).2.2 =
      ∑ h ∈ Finset.range d, ∑ c ∈ Finset.range d, ∑ l ∈ Finset.range d, f h c l :=
  calc _ = ∑ x ∈ Finset.range (d * d), ∑ l ∈ Finset.range d, f (x / d) (x % d) l :=
        sum_range_mul_divMod (d * d) d fun x l => f (x / d) (x % d) l
    _ = _ := sum_range_mul_divMod d d fun h c => ∑ l ∈ Finset.range d, f h c l

/-! ## The smoother (42_histogram R126 to R129) -/

/-- A weighted sum over the listed cells below the bound is the one over all cells below it. -/
theorem Sparse.sum_listed_mul {w : Nat} (n : Nat) (f : Nat → Nat) : ∀ {lo : Nat} {m : Sparse (BitVec w)},
    Sparse.rising lo m = true → ((m.filter fun e => decide (e.1 < n)).map fun e => e.2.toNat * f e.1).sum =
      ∑ i ∈ Finset.range n, (Sparse.read 0#w m i).toNat * f i
  | _, [], _ => by simp
  | lo, (k, v) :: m, hm => by
    simp only [Sparse.rising, Bool.and_eq_true] at hm
    have ih := Sparse.sum_listed_mul n f hm.2
    have hread : ∀ i, (Sparse.read 0#w ((k, v) :: m) i).toNat * f i =
        (Sparse.read 0#w m i).toNat * f i + if i = k then v.toNat * f k else 0 := by
      intro i
      rw [Sparse.read]
      split
      · next hik => rw [hik, Sparse.read_below hm.2 (Nat.lt_succ_self k), BitVec.toNat_zero, Nat.zero_mul, Nat.zero_add]
      · rfl
    rw [Finset.sum_congr rfl fun i _ => hread i, Finset.sum_add_distrib, Finset.sum_ite_eq', ← ih]
    by_cases hk : k < n <;> simp [hk, Nat.add_comm]

/-- A smoothed cell as a sum over all source cells (42_histogram R126). -/
theorem smoothCell_eq_sum (k : CfgRegs) (d : Nat) {m : Sparse (BitVec 24)} (hwf : Sparse.wf 0#24 m = true) (j : Nat) :
    smoothCell k d m j =
      ∑ i ∈ Finset.range (d * d * d), (Sparse.read 0#24 m i).toNat * cellWeight k d i j :=
  Sparse.sum_listed_mul (d * d * d) (fun i => cellWeight k d i j) (Sparse.wf_iff.1 hwf).1

/-- Settles O21: every source cell is the cell of its buckets, and so is the destination. The premise that the depth is not 0
is not needed: there is no bucket below 0. -/
theorem smoothedCellIsTheTripleSum : Obligations.SmoothedCellIsTheTripleSum := by
  intro k d m _ hwf h2 c2 l2 _ hc2 hl2
  rw [smoothCell_eq_sum k d hwf, ← sum_range_cellTriple d fun h c l =>
    (Sparse.read 0#24 m (cell d h c l)).toNat * weightH k d h h2 * weightCL k d c c2 * weightCL k d l l2]
  refine Finset.sum_congr rfl fun i _ => ?_
  rw [cell_cellTriple, cellWeight, cellTriple_cell h2 hc2 hl2, Nat.mul_assoc, Nat.mul_assoc, Nat.mul_assoc]

/-- With its checks passed `H.SMOOTH` writes `S` and its two flags (42_histogram R127). -/
theorem exec_hSmooth_of_checks {s : State} (herr : s.status.err = false) (hinit : s.status.hInit = true)
    (htaps : s.cfg.tapSum = Config.tapOne) : exec .hSmooth s = .next
      ((s.setSmooth (Sparse.replaceBelow s.ncell (smoothed s.cfg s.d s.h) s.smooth)).setStatus s.status.smoothed) := by
  rw [exec_hSmooth, State.gate_of_clear herr, hinit, State.require_true, decide_eq_true htaps, State.require_true]

/-- What `S` holds after `H.SMOOTH`: the smoothed cells in 48 bits below `DEPTH^3`, the old ones above (logs 10, 14). -/
theorem toNat_read_smoothed_tile (s : State) (i : Nat) :
    (Sparse.read 0#48 (Sparse.replaceBelow s.ncell (smoothed s.cfg s.d s.h) s.smooth) i).toNat =
      if i < s.ncell then smoothCell s.cfg s.d s.h i % 2 ^ 48 else (Sparse.read 0#48 s.smooth i).toNat := by
  rw [Sparse.read_replaceBelow]
  split
  · next hi => rw [smoothed, Sparse.read_ofFn, if_pos (show i < s.d * s.d * s.d from hi), BitVec.toNat_ofNat]
  · rfl

/-- Settles O22: both checks pass, so the step writes the smoothed cells. -/
theorem hSmoothWritesTheSmoothedTile : Obligations.HSmoothWritesTheSmoothedTile := by
  intro s herr hinit htaps
  exact ⟨_, exec_hSmooth_of_checks herr hinit htaps, rfl, toNat_read_smoothed_tile s⟩

/-- No smoothed cell exceeds the mass of the tile, since together they add up to it (42_histogram R129). -/
theorem smoothCell_le_mass {s : State} (hr : s.RegsOk) (hm : s.MemOk) (hc : s.CountsOk) (hinit : s.status.hInit = true)
    (htaps : s.cfg.tapSum = Config.tapOne) {i : Nat} (hi : i < s.ncell) :
    smoothCell s.cfg s.d s.h i ≤ s.pixcnt.toNat * 2 ^ 24 :=
  calc smoothCell s.cfg s.d s.h i
      ≤ ∑ j ∈ Finset.range (s.d * s.d * s.d), smoothCell s.cfg s.d s.h j :=
        Finset.single_le_sum (fun _ _ => Nat.zero_le _) (Finset.mem_range.2 hi)
    _ = Sparse.total s.ncell s.h * s.cfg.tapSum ^ 3 := sum_smoothCell s.cfg hr.d_pos hm.h_wf
    _ = s.pixcnt.toNat * 2 ^ 24 := by
        rw [hc hinit, htaps]
        rfl

/-- Settles O23: the total is the tile's mass; each cell is at most that, which fits in 48 bits, so no cut binds. -/
theorem smoothingConservesMass : Obligations.SmoothingConservesMass := by
  intro s t herr hinit htaps hregs hmem hcounts hexec
  rw [exec_hSmooth_of_checks herr hinit htaps] at hexec
  cases hexec
  have hfits : s.pixcnt.toNat * 2 ^ 24 < 2 ^ 48 := by
    have := s.pixcnt.isLt
    omega
  refine ⟨total_smoothed_tile hregs hmem hcounts hinit htaps, fun i hi => ?_⟩
  have hle := smoothCell_le_mass hregs hmem hcounts hinit htaps hi
  refine ⟨?_, hle, hfits⟩
  exact (toNat_read_smoothed_tile s i).trans (by rw [if_pos hi, Nat.mod_eq_of_lt (by omega)])

end Sys2Proof.Machine
end

section
/-! The correlation scorer (43_correlation R140 to R143): the variance of an array as a sum of squared distances of its
cells, the degenerate pairs, symmetry and the score of an array with itself; what `S.CORR` writes, and the checks it shares
with `S.PEAK`. -/

namespace Sys2Proof.Machine

/-! ## The variance (43_correlation R141) -/

/-- The sum of the squared distances of `x` to the cells of an array. -/
def sqDistSum (x : Nat) (ys : List Nat) : Nat := (ys.map fun y : Nat => ((x : Int) - y).natAbs ^ 2).sum

theorem sqDistSum_cons (x y : Nat) (ys : List Nat) :
    sqDistSum x (y :: ys) = ((x : Int) - y).natAbs ^ 2 + sqDistSum x ys := by
  rw [sqDistSum, List.map_cons, List.sum_cons, sqDistSum]

theorem sqDistSum_eq_zero_iff {x : Nat} {ys : List Nat} : sqDistSum x ys = 0 ↔ ∀ y ∈ ys, x = y := by
  simp [sqDistSum, List.sum_eq_zero_iff, sub_eq_zero]

theorem dot_cons (x y : Nat) (xs ys : List Nat) : dot (x :: xs) (y :: ys) = x * y + dot xs ys := by
  rw [dot, List.zipWith_cons_cons, List.sum_cons, dot]

/-- The squares multiplied out: `Σ (x - y)² = m·x² + Σ y² - 2·x·Σ y` over `m` cells `y`. -/
theorem sqDistSum_eq (x : Nat) : ∀ ys : List Nat,
    (sqDistSum x ys : Int) = ys.length * (x : Int) ^ 2 + dot ys ys - 2 * x * ys.sum
  | [] => by simp [sqDistSum, dot]
  | y :: ys => by
    have ih := sqDistSum_eq x ys
    rw [sqDistSum_cons, dot_cons, List.sum_cons, List.length_cons]
    push_cast [-Nat.cast_list_sum, sq_abs]
    linear_combination ih

/-- The variance of an array grows by the squared distances of a new cell to the old ones. -/
theorem covar_self_cons (x : Nat) (xs : List Nat) :
    covar (x :: xs).length (x :: xs) (x :: xs) = covar xs.length xs xs + sqDistSum x xs := by
  rw [sqDistSum_eq, covar, covar, dot_cons, List.sum_cons, List.length_cons]
  push_cast
  ring

theorem covar_self_nonneg : ∀ xs : List Nat, 0 ≤ covar xs.length xs xs
  | [] => le_rfl
  | x :: xs => by
    rw [covar_self_cons]
    exact add_nonneg (covar_self_nonneg xs) (Int.natCast_nonneg _)

/-- The variance vanishes exactly when all cells are equal (43_correlation R141). -/
theorem covar_self_eq_zero_iff : ∀ xs : List Nat, covar xs.length xs xs = 0 ↔ ∀ a ∈ xs, ∀ b ∈ xs, a = b
  | [] => ⟨fun _ => nofun, fun _ => rfl⟩
  | x :: xs => by
    rw [covar_self_cons, add_eq_zero_iff_of_nonneg (covar_self_nonneg xs) (Int.natCast_nonneg _),
      Int.natCast_eq_zero, sqDistSum_eq_zero_iff]
    constructor
    · rintro ⟨-, hx⟩ a ha b hb
      have heq : ∀ c ∈ x :: xs, x = c := List.forall_mem_cons.2 ⟨rfl, hx⟩
      exact (heq a ha).symm.trans (heq b hb)
    · intro h
      exact ⟨(covar_self_eq_zero_iff xs).2 fun a ha b hb => h a (.tail x ha) b (.tail x hb),
        fun b hb => h x (.head xs) b (.tail x hb)⟩

/-! ## The score (43_correlation R140, R141, R143) -/

theorem corr_of_degenerate {n : Nat} {xs ys : List Nat} (h : covar n xs xs = 0 ∨ covar n ys ys = 0) :
    corr n xs ys = (0, true) := if_pos h

theorem corr_of_nondegenerate {n : Nat} {xs ys : List Nat} (h : ¬ (covar n xs xs = 0 ∨ covar n ys ys = 0)) :
    corr n xs ys =
      (clamp (corrQuotient (covar n xs ys) (covar n xs xs) (covar n ys ys)) (-(2 ^ 30)) (2 ^ 30), false) := if_neg h

theorem corr_degenerate_iff {n : Nat} {xs ys : List Nat} :
    (corr n xs ys).2 = true ↔ covar n xs xs = 0 ∨ covar n ys ys = 0 := by
  by_cases h : covar n xs xs = 0 ∨ covar n ys ys = 0
  · simp only [corr_of_degenerate h, h]
  · simp only [corr_of_nondegenerate h, h, Bool.false_eq_true]

/-- Settles O26: both clauses about the pair are the variances of its arrays. -/
theorem degenerateExactlyWhenConstant : Obligations.DegenerateExactlyWhenConstant := by
  rintro n xs ys rfl hys
  have hconst : covar xs.length ys ys = 0 ↔ ∀ a ∈ ys, ∀ b ∈ ys, a = b := hys ▸ covar_self_eq_zero_iff ys
  refine ⟨covar_self_eq_zero_iff xs, covar_self_nonneg xs, ?_, fun hdegen => ?_⟩
  · rw [corr_degenerate_iff, covar_self_eq_zero_iff, hconst]
  · rw [corr_of_degenerate (corr_degenerate_iff.1 hdegen)]

theorem dot_comm (xs ys : List Nat) : dot xs ys = dot ys xs := by
  rw [dot, List.zipWith_comm, dot]
  simp only [Nat.mul_comm]

theorem covar_comm (n : Nat) (xs ys : List Nat) : covar n xs ys = covar n ys xs := by
  rw [covar, covar, dot_comm, mul_comm (xs.sum : Int)]

/-- The score does not depend on which array is the tile's (43_correlation R143 (a)). -/
theorem corr_comm (n : Nat) (xs ys : List Nat) : corr n xs ys = corr n ys xs := by
  have hquot (num vt ve : Int) : corrQuotient num vt ve = corrQuotient num ve vt := by
    rw [corrQuotient, mul_comm vt, corrQuotient]
  rw [corr, corr, covar_comm n xs ys, hquot]
  exact if_congr or_comm rfl rfl

theorem isqrt_mul_self (n : Nat) : isqrt (n * n) = n :=
  iroot_unique two_pos (pow_two n).le (by rw [pow_two]; exact Nat.mul_self_lt_mul_self n.lt_succ_self)

/-- With `NUM = VT = VE > 0` the quotient is 1.0, exactly: the root of the square leaves no rounding. -/
theorem corrQuotient_self {v : Int} (hv : 0 < v) : corrQuotient v v v = 2 ^ 30 := by
  obtain ⟨n, rfl⟩ := Int.eq_ofNat_of_zero_le hv.le
  rw [corrQuotient, ← Int.natCast_mul, Int.toNat_natCast, isqrt_mul_self, shl, fdiv]
  exact Int.mul_ediv_cancel_left _ hv.ne'

/-- A non-degenerate array scores 1.0 with itself (43_correlation R143 (b)). -/
theorem corr_self {xs : List Nat} (h : covar xs.length xs xs ≠ 0) : corr xs.length xs xs = (2 ^ 30, false) := by
  have hpos : 0 < covar xs.length xs xs := lt_of_le_of_ne (covar_self_nonneg xs) h.symm
  rw [corr_of_nondegenerate (not_or_intro h h), corrQuotient_self hpos, clamp_of_mem (by norm_num) le_rfl]

/-- Settles O25: `corr_comm` and `corr_self`. -/
theorem correlationSymmetricAndSelfOne : Obligations.CorrelationSymmetricAndSelfOne := by
  rintro n xs ys rfl -
  exact ⟨corr_comm _ xs ys, corr_self⟩

/-! ## The commands (43_correlation R142, 44_peak R159) -/

/-- A check that passes goes on (60_exceptions R193). -/
theorem State.require_of_true {ok : Bool} (hok : ok = true) (s : State) (c : ErrCode) (i : Instr) (k : State) :
    s.require ok c i k = k := by
  rw [hok, State.require_true]

/-- With its checks passed `S.CORR` writes the slot's score (43_correlation R142). -/
theorem exec_sCorr_of_checks {s : State} {slot : BitVec 16} (herr : s.status.err = false)
    (hsealed : s.status.sealed = true) (hslot : s.slotValid slot.toNat = true) (hvalid : s.status.sValid = true) :
    exec (.sCorr slot) s = .next (s.setScore (s.corrScore (s.slotAt slot.toNat))) := by
  rw [exec_sCorr, State.gate_of_clear herr, State.require_of_true hsealed, State.require_of_true hslot,
    State.require_of_true hvalid]

/-- Settles O24: the score is in range, so `SCORE` holds it. -/
theorem sCorrWritesTheScore : Obligations.SCorrWritesTheScore := by
  intro s slot herr hsealed hlt hslot hvalid
  obtain ⟨hge, hle⟩ :=
    corr_range s.ncell (Sparse.cells s.ncell s.smooth) (Sparse.cells s.ncell (s.slotAt slot.toNat).cells)
  exact ⟨_, _, rfl, hge, hle, _, exec_sCorr_of_checks herr hsealed (State.slotValid_iff.2 ⟨hlt, hslot⟩) hvalid, rfl,
    scoreWord_toInt hge hle⟩

theorem State.slotValid_eq_false_iff {s : State} {k : Nat} :
    s.slotValid k = false ↔ s.nslot ≤ k ∨ (s.slotAt k).valid = false := by
  rw [← Bool.not_eq_true, State.slotValid_iff, not_and_or, Nat.not_lt, Bool.not_eq_true]

/-- Settles O34: in each clause the checks before the named one pass, and that one fails. `S.PEAK` raises the same fault at
its third and its fourth check. -/
theorem scorerChecks : Obligations.ScorerChecks := by
  intro s slot herr
  simp only [exec_sCorr, exec_sPeak, ← encode_sCorr, ← encode_sPeak]
  refine ⟨fun hsealed => ?_, fun hsealed hslot => ?_, fun hsealed hlt hslot hvalid => ?_,
    fun hsealed hlt hslot hlists => ?_⟩
  · rw [State.gate_require_of_false herr hsealed, State.gate_require_of_false herr hsealed]
    exact ⟨rfl, rfl⟩
  · have hbad := State.slotValid_eq_false_iff.2 hslot
    rw [State.require_of_true hsealed, State.require_of_true hsealed, State.gate_require_of_false herr hbad,
      State.gate_require_of_false herr hbad]
    exact ⟨rfl, rfl⟩
  · rw [State.require_of_true hsealed, State.require_of_true (State.slotValid_iff.2 ⟨hlt, hslot⟩),
      State.gate_require_of_false herr hvalid]
    rfl
  · rw [State.require_of_true hsealed, State.require_of_true (State.slotValid_iff.2 ⟨hlt, hslot⟩)]
    by_cases hvalid : s.status.sValid = true
    · have hmissing : (s.status.pkValid && (s.slotAt slot.toNat).pkvalid) = false :=
        Bool.and_eq_false_iff.2 (hlists.resolve_left (ne_false_of_eq_true hvalid))
      rw [State.require_of_true hvalid, State.gate_require_of_false herr hmissing]
      rfl
    · rw [State.gate_require_of_false herr (eq_false_of_ne_true hvalid)]
      rfl

end Sys2Proof.Machine
end

section
/-! The peak extractor (44_peak R150 to R153): the neighbours of a cell by their distance on each axis, the ranking of the
peaks and the cluster list it gives, and what `P.EXTRACT` writes. -/

namespace Sys2Proof.Machine

/-! ## Neighbours (44_peak R150, R151) -/

theorem mem_unitOffsets {o : Int} : o ∈ unitOffsets ↔ o = -1 ∨ o = 0 ∨ o = 1 := by simp [unitOffsets]

theorem neighbourAt_eq_some_iff {d h c l h' c' l' : Nat} {oh oc ol : Int} (hd : 0 < d) :
    neighbourAt d h c l oh oc ol = some (h', c', l') ↔
      ¬ (oh = 0 ∧ oc = 0 ∧ ol = 0) ∧ (h' : Int) = ((h : Int) + oh) % d ∧
        ((c' : Int) = c + oc ∧ c' < d) ∧ (l' : Int) = l + ol ∧ l' < d := by
  have hhue : 0 ≤ ((h : Int) + oh) % d := Int.emod_nonneg _ (by omega)
  rw [neighbourAt, fmod_eq_emod]
  split
  · next hzero => simp [hzero]
  · next hzero =>
    split
    · simp only [Option.some.injEq, Prod.mk.injEq]
      omega
    · simp only [reduceCtorEq, false_iff]
      omega

/-- The bucket after `x` on the hue axis, where 0 follows `d - 1`. -/
theorem succ_mod_of_lt {d x : Nat} (hx : x < d) : (x + 1) % d = if x + 1 = d then 0 else x + 1 := by
  split
  · next hwrap => rw [hwrap, Nat.mod_self]
  · exact Nat.mod_eq_of_lt (by omega)

/-- One bucket down on the hue axis is the bucket that this one follows. -/
theorem hue_offset_iff {d h h' : Nat} (hh : h < d) (hh' : h' < d) {oh : Int} (hoff : oh ∈ unitOffsets) :
    (h' : Int) = ((h : Int) + oh) % d ↔
      (oh = -1 ∧ h = (h' + 1) % d) ∨ (oh = 0 ∧ h' = h) ∨ (oh = 1 ∧ h' = (h + 1) % d) := by
  rcases mem_unitOffsets.1 hoff with rfl | rfl | rfl
  · have hprev : ((h : Int) + -1) % d = if h = 0 then (d : Int) - 1 else h - 1 := by
      split
      · next hzero =>
        rw [hzero, ← Int.add_emod_right]
        exact (Int.emod_eq_of_lt (by omega) (by omega)).trans (by omega)
      · exact Int.emod_eq_of_lt (by omega) (by omega)
    rw [hprev, succ_mod_of_lt hh']
    split <;> split <;> omega
  · rw [Int.emod_eq_of_lt (by omega) (by omega)]
    omega
  · rw [← Nat.cast_one, ← Nat.cast_add, ← Int.natCast_mod, Nat.cast_inj]
    omega

/-- The neighbours of a cell: the other cells at most one bucket away on each axis, hue wrapping (44_peak R150). -/
theorem mem_neighbours {d h c l h' c' l' : Nat} (hd : 2 ≤ d) (hh : h < d) :
    (h', c', l') ∈ neighbours d h c l ↔
      (h' < d ∧ c' < d ∧ l' < d) ∧ ¬ (h' = h ∧ c' = c ∧ l' = l) ∧
        (h' = h ∨ h' = (h + 1) % d ∨ h = (h' + 1) % d) ∧ (c' ≤ c + 1 ∧ c ≤ c' + 1) ∧ l' ≤ l + 1 ∧ l ≤ l' + 1 := by
  simp only [neighbours, List.mem_flatMap, List.mem_filterMap, neighbourAt_eq_some_iff (show 0 < d by omega)]
  constructor
  · rintro ⟨oh, hoh, oc, hoc, ol, hol, hne, hhue, ⟨hc, hcd⟩, hl, hld⟩
    have hh' : h' < d := Int.ofNat_lt.1 (hhue ▸ Int.emod_lt_of_pos _ (by omega))
    rw [hue_offset_iff hh hh' hoh] at hhue
    rw [mem_unitOffsets] at hoc hol
    have hmove : h' = h → oh = 0 := by
      have := succ_mod_of_lt hh
      rintro rfl
      split at this <;> omega
    omega
  · rintro ⟨⟨hh', hcd, hld⟩, hne, hhue, hc, hl⟩
    have hmoved : ∃ oh ∈ unitOffsets, (h' : Int) = ((h : Int) + oh) % d ∧ (oh = 0 → h' = h) := by
      rcases hhue with hsame | hnext | hprev
      · exact ⟨0, by decide, (hue_offset_iff hh hh' (by decide)).2 (.inr (.inl ⟨rfl, hsame⟩)), fun _ => hsame⟩
      · exact ⟨1, by decide, (hue_offset_iff hh hh' (by decide)).2 (.inr (.inr ⟨rfl, hnext⟩)), nofun⟩
      · exact ⟨-1, by decide, (hue_offset_iff hh hh' (by decide)).2 (.inl ⟨rfl, hprev⟩), nofun⟩
    obtain ⟨oh, hoh, hhue', hzero⟩ := hmoved
    exact ⟨oh, hoh, (c' : Int) - c, mem_unitOffsets.2 (by omega), (l' : Int) - l, mem_unitOffsets.2 (by omega),
      by omega, hhue', ⟨by omega, hcd⟩, by omega, hld⟩

theorem isPeak_iff {m : Sparse (BitVec 48)} {d h c l : Nat} : isPeak m d h c l = true ↔
    ∀ h' c' l', (h', c', l') ∈ neighbours d h c l → smoothAt m d h' c' l' < smoothAt m d h c l := by
  simp only [isPeak, List.all_eq_true, decide_eq_true_eq, Prod.forall]

/-- Settles O27: a peak is above every member of `neighbours`, and `mem_neighbours` says which cells those are. -/
theorem peakIsStrictLocalMaximum : Obligations.PeakIsStrictLocalMaximum := by
  intro m d h c l hd hh _ _
  rw [isPeak_iff]
  constructor
  · intro hpeak h' c' l' hh' hc' hl' hne hhue hc1 hc2 hl1 hl2
    exact hpeak h' c' l' ((mem_neighbours hd hh).2 ⟨⟨hh', hc', hl'⟩, hne, hhue, ⟨hc1, hc2⟩, hl1, hl2⟩)
  · intro hmax h' c' l' hmem
    obtain ⟨⟨hh', hc', hl'⟩, hne, hhue, ⟨hc1, hc2⟩, hl1, hl2⟩ := (mem_neighbours hd hh).1 hmem
    exact hmax h' c' l' hh' hc' hl' hne hhue hc1 hc2 hl1 hl2

/-! ## The cluster list (44_peak R152, R153) -/

theorem ranksBefore_iff {m : Sparse (BitVec 48)} {i j : Nat} : ranksBefore m i j = true ↔
    (Sparse.read 0#48 m j).toNat < (Sparse.read 0#48 m i).toNat ∨
      (Sparse.read 0#48 m i = Sparse.read 0#48 m j ∧ i < j) := by
  rw [ranksBefore, Bool.or_eq_true, Bool.and_eq_true, decide_eq_true_iff, decide_eq_true_iff, decide_eq_true_iff,
    BitVec.toNat_inj, eq_comm]

theorem ranksBefore_trans {m : Sparse (BitVec 48)} {i j k : Nat} (hij : ranksBefore m i j = true)
    (hjk : ranksBefore m j k = true) : ranksBefore m i k = true := by
  rw [ranksBefore_iff, ← BitVec.toNat_inj] at *
  omega

theorem ranksBefore_of_not {m : Sparse (BitVec 48)} {i j : Nat} (hne : i ≠ j) (h : ¬ ranksBefore m i j = true) :
    ranksBefore m j i = true := by
  rw [ranksBefore_iff, ← BitVec.toNat_inj] at *
  omega

/-- Inserting a new index into a list sorted by rank keeps it sorted. -/
theorem rankInsert_pairwise {m : Sparse (BitVec 48)} {i : Nat} : ∀ {is : List Nat},
    is.Pairwise (fun a b => ranksBefore m a b = true) → i ∉ is →
      (rankInsert m i is).Pairwise fun a b => ranksBefore m a b = true
  | [], _, _ => List.pairwise_singleton _ _
  | j :: js, hsorted, hnew => by
    obtain ⟨hj, hjs⟩ := List.pairwise_cons.1 hsorted
    rw [List.mem_cons, not_or] at hnew
    rw [rankInsert]
    split
    · next hij =>
      exact .cons (List.forall_mem_cons.2 ⟨hij, fun a ha => ranksBefore_trans hij (hj a ha)⟩) hsorted
    · next hij =>
      refine .cons (fun a ha => ?_) (rankInsert_pairwise hjs hnew.2)
      rcases List.mem_cons.1 ((rankInsert_perm m i js).mem_iff.1 ha) with rfl | ha
      · exact ranksBefore_of_not hnew.1 hij
      · exact hj a ha

/-- Distinct indices come out sorted by rank. -/
theorem rankSort_pairwise {m : Sparse (BitVec 48)} : ∀ {is : List Nat}, is.Nodup →
    (rankSort m is).Pairwise fun a b => ranksBefore m a b = true
  | [], _ => .nil
  | i :: is, hnodup => by
    obtain ⟨hi, his⟩ := List.nodup_cons.1 hnodup
    exact rankInsert_pairwise (rankSort_pairwise his) fun hmem => hi ((rankSort_perm m is).mem_iff.1 hmem)

theorem peakCells_nodup (m : Sparse (BitVec 48)) (d : Nat) : (peakCells m d).Nodup := List.nodup_range.filter _

theorem mem_peakCells {m : Sparse (BitVec 48)} {d i : Nat} : i ∈ peakCells m d ↔
    i < d * d * d ∧ isPeak m d (cellTriple d i).1 (cellTriple d i).2.1 (cellTriple d i).2.2 = true := by
  rw [peakCells, List.mem_filter, List.mem_range]

/-- The cells of the cluster list, by rank: the first `maxPeaks` peaks (44_peak R152). -/
def topCells (m : Sparse (BitVec 48)) (d maxPeaks : Nat) : List Nat := (rankSort m (peakCells m d)).take maxPeaks

theorem peaks_eq_map_topCells (m : Sparse (BitVec 48)) (d maxPeaks : Nat) :
    peaks m d maxPeaks = (topCells m d maxPeaks).map (clusterOf m d) := rfl

theorem mem_peakCells_of_mem_topCells {m : Sparse (BitVec 48)} {d maxPeaks i : Nat} (h : i ∈ topCells m d maxPeaks) :
    i ∈ peakCells m d := (rankSort_perm m _).mem_iff.1 (List.mem_of_mem_take h)

theorem topCells_length (m : Sparse (BitVec 48)) (d maxPeaks : Nat) :
    (topCells m d maxPeaks).length = min maxPeaks (peakCells m d).length := by
  rw [topCells, List.length_take, (rankSort_perm m _).length_eq]

theorem topCells_pairwise (m : Sparse (BitVec 48)) (d maxPeaks : Nat) :
    (topCells m d maxPeaks).Pairwise fun i j => ranksBefore m i j = true :=
  (rankSort_pairwise (peakCells_nodup m d)).sublist (List.take_sublist _ _)

/-- A peak the list has no room for ranks after every cell of it. -/
theorem mem_topCells_or_ranksBefore {m : Sparse (BitVec 48)} {d i : Nat} (maxPeaks : Nat) (h : i ∈ peakCells m d) :
    i ∈ topCells m d maxPeaks ∨ ∀ j ∈ topCells m d maxPeaks, ranksBefore m j i = true := by
  have hsorted := rankSort_pairwise (m := m) (peakCells_nodup m d)
  have hmem := (rankSort_perm m _).mem_iff.2 h
  rw [← List.take_append_drop maxPeaks (rankSort m (peakCells m d))] at hsorted hmem
  refine (List.mem_append.1 hmem).imp_right fun hdrop j hj => ?_
  exact (List.pairwise_append.1 hsorted).2.2 j hj i hdrop

/-- At a depth up to 32 the record of a cell holds its buckets whole (10_state R24). -/
theorem clusterOf_toNat (m : Sparse (BitVec 48)) {d i : Nat} (hmax : d ≤ 32) (hi : i < d * d * d) :
    (clusterOf m d i).h.toNat = (cellTriple d i).1 ∧ (clusterOf m d i).c.toNat = (cellTriple d i).2.1 ∧
      (clusterOf m d i).l.toNat = (cellTriple d i).2.2 := by
  have hfield : ∀ {n : Nat}, n < d → (BitVec.ofNat 5 n).toNat = n := fun hn => by
    rw [BitVec.toNat_ofNat, Nat.mod_eq_of_lt (by omega)]
  obtain ⟨hh, hc, hl⟩ := cellTriple_lt hi
  exact ⟨hfield hh, hfield hc, hfield hl⟩

/-- The record of a cell names that cell. -/
theorem cell_clusterOf (m : Sparse (BitVec 48)) {d i : Nat} (hmax : d ≤ 32) (hi : i < d * d * d) :
    cell d (clusterOf m d i).h.toNat (clusterOf m d i).c.toNat (clusterOf m d i).l.toNat = i := by
  obtain ⟨hh, hc, hl⟩ := clusterOf_toNat m hmax hi
  rw [hh, hc, hl, cell_cellTriple]

theorem clusterOf_mass (m : Sparse (BitVec 48)) (d i : Nat) : (clusterOf m d i).mass = Sparse.read 0#48 m i := rfl

/-- The cell of buckets below the depth is one of the `DEPTH^3` cells (00_scope R9). -/
theorem cell_lt {d h c l : Nat} (hh : h < d) (hc : c < d) (hl : l < d) : cell d h c l < d * d * d := by
  have hrow : h * d + c < d * d := by nlinarith
  rw [cell]
  nlinarith

/-- Settles O28: the list is the records of `topCells`, the first of the peaks sorted by rank. -/
theorem clusterListHoldsTheTopPeaks : Obligations.ClusterListHoldsTheTopPeaks := by
  intro m d maxPeaks _ hmax
  have hbound : ∀ {i}, i ∈ topCells m d maxPeaks → i < d * d * d := fun hi =>
    (mem_peakCells.1 (mem_peakCells_of_mem_topCells hi)).1
  simp only [peaks_eq_map_topCells, List.forall_mem_map]
  refine ⟨?_, fun i hi => ?_, ?_, fun h c l hh hc hl hpeak => ?_⟩
  · rw [List.length_map, topCells_length, List.countP_eq_length_filter]
    rfl
  · obtain ⟨hlt, hpeak⟩ := mem_peakCells.1 (mem_peakCells_of_mem_topCells hi)
    rw [cell_clusterOf m hmax hlt]
    obtain ⟨hh, hc, hl⟩ := clusterOf_toNat m hmax hlt
    obtain ⟨hhd, hcd, hld⟩ := cellTriple_lt hlt
    rw [hh, hc, hl]
    exact ⟨hhd, hcd, hld, hpeak, rfl⟩
  · rw [List.pairwise_map]
    refine (topCells_pairwise m d maxPeaks).imp_of_mem fun hi hj hrank => ?_
    rw [cell_clusterOf m hmax (hbound hi), cell_clusterOf m hmax (hbound hj)]
    exact ranksBefore_iff.1 hrank
  · have htriple := cellTriple_cell h hc hl
    have hcell : cell d h c l ∈ peakCells m d := mem_peakCells.2 ⟨cell_lt hh hc hl, by rw [htriple]; exact hpeak⟩
    refine (mem_topCells_or_ranksBefore maxPeaks hcell).imp (fun htop => ?_) fun hafter j hj => ?_
    · have hrec := clusterOf_toNat m hmax (hbound htop)
      rw [htriple] at hrec
      exact ⟨_, List.mem_map_of_mem htop, hrec⟩
    · rw [cell_clusterOf m hmax (hbound hj), eq_comm (a := Sparse.read 0#48 m (cell d h c l))]
      exact ranksBefore_iff.1 (hafter j hj)

/-- Settles O29: its one check passes. -/
theorem pExtractWritesTheClusters : Obligations.PExtractWritesTheClusters := by
  intro s herr hvalid
  rw [exec_pExtract, State.gate_of_clear herr, State.require_of_true hvalid]
  rfl

end Sys2Proof.Machine
end

section
/-! The peak matcher (44_peak R154 to R159): the distance and the similarity of two clusters, the pairs and the greedy
assignment, the bound of its sum that keeps the score's guard from binding, and what `S.PEAK` writes. -/

namespace Sys2Proof.Machine

/-! ## Distance (44_peak R154) -/

theorem abs_sub_natCast (a b : Nat) : |(a : Int) - b| = (absDiff a b : Nat) := by
  rw [absDiff]
  rcases abs_cases ((a : Int) - b) with ⟨h, hle⟩ | ⟨h, hlt⟩ <;> omega

theorem absDiff_comm (a b : Nat) : absDiff a b = absDiff b a := Nat.add_comm _ _

theorem absDiff_lt {a b n : Nat} (ha : a < n) (hb : b < n) : absDiff a b < n := by
  rw [absDiff]
  omega

/-- The distance in natural numbers: no difference of two hues below the depth reaches the depth. -/
theorem dist2_eq (k : CfgRegs) {d : Nat} {p q : Cluster} (hp : p.h.toNat < d) (hq : q.h.toNat < d) :
    dist2 k d p q = k.pdsH.toNat * (min (absDiff p.h.toNat q.h.toNat) (d - absDiff p.h.toNat q.h.toNat)) ^ 2
      + k.pdsC.toNat * (absDiff p.c.toNat q.c.toNat) ^ 2 + k.pdsL.toNat * (absDiff p.l.toNat q.l.toNat) ^ 2 := by
  have hlt := absDiff_lt hp hq
  simp only [dist2, abs_sub_natCast, ← Nat.cast_sub hlt.le]
  exact_mod_cast Int.toNat_natCast _

/-- The greatest distance: half the greatest hue circle and all of the other two axes, at the greatest weights. -/
theorem dist2_le (k : CfgRegs) {d : Nat} {p q : Cluster} (hmax : d ≤ 32) (hp : p.h.toNat < d) (hq : q.h.toNat < d) :
    dist2 k d p q ≤ 555390 := by
  have hterm : ∀ (w : BitVec 8) {x n : Nat}, x ≤ n → w.toNat * x ^ 2 ≤ 255 * n ^ 2 := fun w _ _ hx =>
    Nat.mul_le_mul (Nat.le_of_lt_succ w.isLt) (Nat.pow_le_pow_left hx 2)
  have hhue : min (absDiff p.h.toNat q.h.toNat) (d - absDiff p.h.toNat q.h.toNat) ≤ 16 := by omega
  have hchroma := absDiff_lt p.c.isLt q.c.isLt
  have hlight := absDiff_lt p.l.isLt q.l.isLt
  rw [dist2_eq k hp hq]
  exact add_le_add (add_le_add (hterm _ hhue) (hterm _ (Nat.le_of_lt_succ hchroma))) (hterm _ (Nat.le_of_lt_succ hlight))

theorem dist2_comm (k : CfgRegs) (d : Nat) (p q : Cluster) : dist2 k d p q = dist2 k d q p := by
  simp only [dist2, abs_sub_comm]

/-! ## Similarity (44_peak R155) -/

theorem simOfDist_of_ge {a : Nat} (h : 17 ≤ a / 16) : simOfDist a = 0 := if_pos h

theorem simOfDist_of_lt {a : Nat} (h : a / 16 < 17) : simOfDist a = frac2 (a % 16) / 2 ^ (a / 16) := if_neg (by omega)

/-- `FRAC2` falls, and its last entry is at least half of its first. -/
theorem frac2_falls : (∀ r < 15, frac2 (r + 1) ≤ frac2 r) ∧ frac2 0 / 2 ≤ frac2 15 := by decide

/-- One step of the distance: the next entry of the table under the same shift, or the first entry under one shift more. -/
theorem simOfDist_succ_le (a : Nat) : simOfDist (a + 1) ≤ simOfDist a := by
  obtain ⟨hrow, hend⟩ := frac2_falls
  by_cases hzero : 17 ≤ (a + 1) / 16
  · rw [simOfDist_of_ge hzero]
    exact Nat.zero_le _
  · rw [simOfDist_of_lt (by omega), simOfDist_of_lt (by omega)]
    by_cases hlast : a % 16 = 15
    · have hshift : (a + 1) / 16 = a / 16 + 1 := by omega
      have hfirst : (a + 1) % 16 = 0 := by omega
      rw [hshift, hfirst, hlast, Nat.pow_succ', ← Nat.div_div_eq_div_mul]
      exact Nat.div_le_div_right hend
    · have hshift : (a + 1) / 16 = a / 16 := by omega
      have hnext : (a + 1) % 16 = a % 16 + 1 := by omega
      rw [hshift, hnext]
      exact Nat.div_le_div_right (hrow _ (by omega))

theorem simOfDist_antitone : Antitone simOfDist := antitone_nat_of_succ_le simOfDist_succ_le

theorem simOfDist_zero : simOfDist 0 = 65536 := by decide

theorem simOfDist_256 : simOfDist 256 = 1 := by decide

theorem simOfDist_257 : simOfDist 257 = 0 := by decide

theorem simOfDist_pos_iff {a : Nat} : 0 < simOfDist a ↔ a ≤ 256 := by
  constructor
  · intro hpos
    by_contra hlt
    have hle : simOfDist a ≤ simOfDist 257 := simOfDist_antitone (Nat.lt_of_not_le hlt)
    rw [simOfDist_257] at hle
    omega
  · intro hle
    have hge : simOfDist 256 ≤ simOfDist a := simOfDist_antitone hle
    rwa [simOfDist_256] at hge

theorem sim_le (k : CfgRegs) (d : Nat) (p q : Cluster) : sim k d p q ≤ 65536 :=
  (simOfDist_antitone (Nat.zero_le _)).trans_eq simOfDist_zero

/-- Settles O30: `dist2_eq` and its bound, and one step of the similarity, `simOfDist_succ_le`. -/
theorem similarityNeverIncreases : Obligations.SimilarityNeverIncreases :=
  ⟨fun k d p q hmax hp hq => ⟨dist2_eq k hp hq, dist2_comm k d p q, dist2_le k hmax hp hq⟩, fun _ _ _ _ => rfl,
    simOfDist_zero, simOfDist_256, fun _ _ hab => simOfDist_antitone hab, fun _ => simOfDist_pos_iff, fun _ => rfl⟩

/-! ## Pairs (44_peak R156) -/

theorem mem_weightedPairs {k : CfgRegs} {d : Nat} {ts es : List Cluster} {p : WeightedPair} :
    p ∈ weightedPairs k d ts es ↔ ∃ t e, ts[p.i]? = some t ∧ es[p.j]? = some e ∧
      p.weight = sim k d t e * t.mass.toNat * e.mass.toNat := by
  simp only [weightedPairs, List.mem_flatMap, List.mem_map, Prod.exists, List.mem_zipIdx_iff_getElem?]
  constructor
  · rintro ⟨t, i, ht, e, j, he, rfl⟩
    exact ⟨t, e, ht, he, rfl⟩
  · rintro ⟨t, e, ht, he, hw⟩
    exact ⟨t, p.i, ht, e, p.j, he, by rw [← hw]⟩

/-- Pair `p` stands before pair `q`: of smaller `i`, or of the same `i` and smaller `j` (44_peak R157). -/
def WeightedPair.Before (p q : WeightedPair) : Prop := p.i < q.i ∨ (p.i = q.i ∧ p.j < q.j)

theorem zipIdx_pairwise {α : Type} (xs : List α) : xs.zipIdx.Pairwise fun x y => x.2 < y.2 := by
  have hidx : (xs.zipIdx.map Prod.snd).Pairwise (· < ·) := by
    rw [List.zipIdx_map_snd]
    exact List.pairwise_lt_range'
  exact List.pairwise_map.1 hidx

theorem weightedPairs_pairwise (k : CfgRegs) (d : Nat) (ts es : List Cluster) :
    (weightedPairs k d ts es).Pairwise WeightedPair.Before := by
  rw [weightedPairs, List.pairwise_flatMap]
  refine ⟨fun t _ => ?_, (zipIdx_pairwise ts).imp fun ht p hp q hq => ?_⟩
  · exact List.pairwise_map.2 ((zipIdx_pairwise es).imp fun he => .inr ⟨rfl, he⟩)
  · obtain ⟨_, -, rfl⟩ := List.mem_map.1 hp
    obtain ⟨_, -, rfl⟩ := List.mem_map.1 hq
    exact .inl ht

/-! ## The greedy assignment (44_peak R157) -/

/-- The first of the heaviest pairs of a list in order: every other pair is lighter, or as heavy and not before it. -/
def IsHeaviest (ps : List WeightedPair) (p : WeightedPair) : Prop :=
  p ∈ ps ∧ ∀ q ∈ ps, q.weight < p.weight ∨ (q.weight = p.weight ∧ (q = p ∨ p.Before q))

/-- `heaviest` finds it in every list that is not empty. -/
theorem exists_heaviest : ∀ {ps : List WeightedPair}, ps.Pairwise WeightedPair.Before → ps ≠ [] →
    ∃ p, heaviest ps = some p ∧ IsHeaviest ps p
  | [p], _, _ => ⟨p, rfl, List.mem_singleton_self p, fun q hq => .inr (by simp [List.mem_singleton.1 hq])⟩
  | p :: r :: rs, hsorted, _ => by
    obtain ⟨hp, hrest⟩ := List.pairwise_cons.1 hsorted
    obtain ⟨q, hq, hmem, hmax⟩ := exists_heaviest hrest (List.cons_ne_nil r rs)
    rw [heaviest, hq]
    by_cases hlt : p.weight < q.weight
    · exact ⟨q, if_pos hlt, .tail _ hmem, List.forall_mem_cons.2 ⟨.inl hlt, hmax⟩⟩
    · refine ⟨p, if_neg hlt, .head _, List.forall_mem_cons.2 ⟨.inr ⟨rfl, .inl rfl⟩, fun x hx => ?_⟩⟩
      have hxp : x.weight ≤ p.weight := by
        have := hmax x hx
        omega
      exact hxp.lt_or_eq.imp_right fun heq => ⟨heq, .inr (hp x hx)⟩

@[simp] theorem greedy_zero (ps : List WeightedPair) : greedy 0 ps = 0 := rfl

@[simp] theorem greedy_nil (n : Nat) : greedy n [] = 0 := by cases n <;> rfl

/-- The pairs that share neither cluster with `p` (44_peak R157). -/
def unmatched (p : WeightedPair) (ps : List WeightedPair) : List WeightedPair :=
  ps.filter fun q => q.i ≠ p.i ∧ q.j ≠ p.j

/-- One round: the chosen pair's weight, and the assignment of the pairs it leaves. -/
theorem greedy_succ {ps : List WeightedPair} {p : WeightedPair} (h : heaviest ps = some p) (n : Nat) :
    greedy (n + 1) ps = p.weight + greedy n (unmatched p ps) := by
  simp only [greedy, h, unmatched, Bool.decide_and]

/-- Settles O31: the pairs stand in order, and so do those left in any round, of which `heaviest` finds the first. -/
theorem greedyPicksHeaviestLowestPair : Obligations.GreedyPicksHeaviestLowestPair := by
  intro k d ts es
  refine ⟨fun _ => mem_weightedPairs, weightedPairs_pairwise k d ts es, rfl, greedy_zero, greedy_nil,
    fun n ps hsub hne => ?_⟩
  obtain ⟨p, hp, hmem, hmax⟩ := exists_heaviest ((weightedPairs_pairwise k d ts es).sublist hsub) hne
  refine ⟨p, hmem, hp, fun q hq => (hmax q hq).imp_right fun ⟨heq, hpos⟩ => ⟨heq, ?_⟩, greedy_succ hp n⟩
  rcases hpos with rfl | hless | ⟨hi, hj⟩
  · exact .inr ⟨rfl, le_rfl⟩
  · exact .inl hless
  · exact .inr ⟨hi, hj.le⟩

/-! ## The score (44_peak R158) -/

theorem mem_of_heaviest : ∀ {ps : List WeightedPair} {p : WeightedPair}, heaviest ps = some p → p ∈ ps
  | q :: ps, p, h => by
    rw [heaviest] at h
    split at h
    · cases h
      exact .head _
    · next r hr =>
      split at h <;> cases h
      · exact .tail _ (mem_of_heaviest hr)
      · exact .head _

/-- The chosen pair and the pairs it leaves are distinct pairs of the list. -/
theorem cons_unmatched_subperm {ps : List WeightedPair} {p : WeightedPair} (h : p ∈ ps) :
    (p :: unmatched p ps).Subperm ps :=
  List.cons_subperm_of_not_mem_of_mem (fun hmem => by simp [unmatched] at hmem) h List.filter_sublist.subperm

/-- The assignment adds weights of distinct pairs, so it stays below the sum of all weights. -/
theorem greedy_le_sum : ∀ (n : Nat) (ps : List WeightedPair), greedy n ps ≤ (ps.map WeightedPair.weight).sum
  | 0, _ => Nat.zero_le _
  | n + 1, ps => by
    rcases hp : heaviest ps with _ | p
    · simp [greedy, hp]
    · rw [greedy_succ hp]
      obtain ⟨qs, hperm, hsub⟩ := cons_unmatched_subperm (mem_of_heaviest hp)
      calc p.weight + greedy n (unmatched p ps)
          ≤ ((p :: unmatched p ps).map WeightedPair.weight).sum := Nat.add_le_add_left (greedy_le_sum n _) _
        _ = (qs.map WeightedPair.weight).sum := (hperm.map _).sum_eq.symm
        _ ≤ (ps.map WeightedPair.weight).sum := (hsub.map _).sum_le_sum fun _ _ => Nat.zero_le _

/-- The sum of the masses of a cluster list. -/
def massSum (xs : List Cluster) : Nat := (xs.map fun x => x.mass.toNat).sum

theorem map_fst_zipIdx {α β : Type} (f : α → β) (xs : List α) : (xs.zipIdx.map fun x => f x.1) = xs.map f :=
  (List.map_map (f := Prod.fst)).symm.trans (congrArg (List.map f) (List.zipIdx_map_fst 0 xs))

/-- The sum of all weights as a double sum over the two lists (44_peak R156). -/
theorem sum_weightedPairs (k : CfgRegs) (d : Nat) (ts es : List Cluster) :
    ((weightedPairs k d ts es).map WeightedPair.weight).sum =
      (ts.map fun t => (es.map fun e => sim k d t e * t.mass.toNat * e.mass.toNat).sum).sum := by
  rw [weightedPairs, List.map_flatMap, List.flatMap_def, List.sum_flatten, List.map_map, ← map_fst_zipIdx _ ts]
  refine congrArg List.sum (List.map_congr_left fun t _ => ?_)
  rw [Function.comp_apply, List.map_map]
  exact congrArg List.sum (map_fst_zipIdx (fun e => sim k d t.1 e * t.1.mass.toNat * e.mass.toNat) es)

/-- No similarity exceeds 65536, so the weights add up to at most that times the product of the mass sums. -/
theorem sum_weightedPairs_le (k : CfgRegs) (d : Nat) (ts es : List Cluster) :
    ((weightedPairs k d ts es).map WeightedPair.weight).sum ≤ 65536 * (massSum ts * massSum es) := by
  rw [sum_weightedPairs, massSum, ← List.sum_map_mul_right, ← List.sum_map_mul_left]
  refine List.sum_le_sum fun t _ => ?_
  rw [massSum, ← mul_assoc, ← List.sum_map_mul_left]
  exact List.sum_le_sum fun e _ => Nat.mul_le_mul_right _ (Nat.mul_le_mul_right _ (sim_le k d t e))

theorem assignment_le (k : CfgRegs) (d : Nat) {ts es : List Cluster} {mt me : Nat} (ht : massSum ts ≤ mt)
    (he : massSum es ≤ me) : assignment k d ts es ≤ 65536 * (mt * me) :=
  calc assignment k d ts es ≤ 65536 * (massSum ts * massSum es) :=
        (greedy_le_sum _ _).trans (sum_weightedPairs_le k d ts es)
    _ ≤ 65536 * (mt * me) := Nat.mul_le_mul_left _ (Nat.mul_le_mul ht he)

theorem pscore_of_nondegenerate (k : CfgRegs) (d : Nat) {ts es : List Cluster} {mt me : Nat} (hts : ts.length ≠ 0)
    (hes : es.length ≠ 0) (hmt : mt ≠ 0) (hme : me ≠ 0) : pscore k d ts mt es me =
      (min (2 ^ 30) ((assignment k d ts es * 2 ^ 14 / (mt * me) : Nat) : Int), false) := by
  rw [pscore, if_neg (not_or_intro hts (not_or_intro hes (not_or_intro hmt hme))), fdiv, shl]
  push_cast
  rfl

/-- Masses that add up to at most the totals leave the quotient at or below 1.0 (44_peak R158). -/
theorem pscore_of_masses (k : CfgRegs) (d : Nat) {ts es : List Cluster} {mt me : Nat} (ht : massSum ts ≤ mt)
    (he : massSum es ≤ me) (hts : ts.length ≠ 0) (hes : es.length ≠ 0) (hmt : mt ≠ 0) (hme : me ≠ 0) :
    pscore k d ts mt es me = (((assignment k d ts es * 2 ^ 14 / (mt * me) : Nat) : Int), false) := by
  have hquot : assignment k d ts es * 2 ^ 14 / (mt * me) ≤ 2 ^ 30 := by
    refine Nat.div_le_of_le_mul ?_
    have hsum := assignment_le k d ht he
    omega
  rw [pscore_of_nondegenerate k d hts hes hmt hme, min_eq_right (by exact_mod_cast hquot)]

theorem totalMass_ne_zero {x : BitVec 24} (h : x ≠ 0#24) : totalMass x ≠ 0 := by
  rw [totalMass]
  have : x.toNat ≠ 0 := fun hzero => h (BitVec.eq_of_toNat_eq hzero)
  omega

/-- Settles O32: the mass invariant bounds the masses of both lists by their totals, and `pscore_of_masses` does the rest. -/
theorem peakScoreGuardNeverBinds : Obligations.PeakScoreGuardNeverBinds := by
  refine ⟨fun k d ts es mt me => ?_, fun s j hmass hpk hslot hslotpk hts hes htile hpix => ?_⟩
  · obtain ⟨hge, hle⟩ := pscore_range k d ts mt es me
    refine ⟨hge, hle, fun ht he hts hes hmt hme => ?_⟩
    exact Prod.ext_iff.1 (pscore_of_masses k d ht he hts hes hmt hme)
  · exact congrArg Prod.fst (pscore_of_masses s.cfg s.d (hmass.tile_clusters hpk) (hmass.slot_clusters j hslot hslotpk)
      hts hes (totalMass_ne_zero htile) (totalMass_ne_zero hpix))

/-! ## The command (44_peak R159) -/

/-- With its checks passed `S.PEAK` writes the slot's score. -/
theorem exec_sPeak_of_checks {s : State} {slot : BitVec 16} (herr : s.status.err = false)
    (hsealed : s.status.sealed = true) (hslot : s.slotValid slot.toNat = true) (hvalid : s.status.sValid = true)
    (hpk : s.status.pkValid = true) (hslotpk : (s.slotAt slot.toNat).pkvalid = true) :
    exec (.sPeak slot) s = .next (s.setScore (s.peakScore (s.slotAt slot.toNat))) := by
  rw [exec_sPeak, State.gate_of_clear herr, State.require_of_true hsealed, State.require_of_true hslot,
    State.require_of_true hvalid, State.require_of_true (Bool.and_eq_true_iff.2 ⟨hpk, hslotpk⟩)]

/-- Settles O33: the score is in range, so `SCORE` holds it. -/
theorem sPeakWritesTheScore : Obligations.SPeakWritesTheScore := by
  intro s slot herr hsealed hlt hslot hvalid hpk hslotpk
  obtain ⟨hge, hle⟩ := pscore_range s.cfg s.d s.tcl (totalMass s.pixcnt) (s.slotAt slot.toNat).cl
    (totalMass (s.slotAt slot.toNat).pixcnt)
  exact ⟨_, _, rfl, _, exec_sPeak_of_checks herr hsealed (State.slotValid_iff.2 ⟨hlt, hslot⟩) hvalid hpk hslotpk, rfl,
    scoreWord_toInt (le_trans (by norm_num) hge) hle⟩

end Sys2Proof.Machine
end

section
/-! The asset store and best match (45_assets_match R170 to R175): the valid slots by their numbers, what `A.COMMIT` and
`A.SEAL` write, the ranking behind `MATCH`, and the checks of the commands. -/

namespace Sys2Proof.Machine

/-! ## The valid slots by number (45_assets_match R172) -/

/-- What some listed valid slot meets, some slot `k < NSLOT` with `VALID = 1` meets. -/
theorem State.exists_mem_validSlots_iff {s : State} (hwf : Sparse.wf Slot.empty s.slots = true) {p : Nat × Slot → Prop} :
    (∃ e ∈ s.validSlots, p e) ↔ ∃ k, k < s.nslot ∧ (s.slotAt k).valid = true ∧ p (k, s.slotAt k) := by
  constructor
  · rintro ⟨e, hmem, hp⟩
    obtain ⟨hslot, heq⟩ := (State.mem_validSlots_iff hwf).1 hmem
    obtain ⟨hlt, hvalid⟩ := State.slotValid_iff.1 hslot
    exact ⟨e.1, hlt, hvalid, heq ▸ hp⟩
  · rintro ⟨k, hlt, hvalid, hp⟩
    exact ⟨_, (State.mem_validSlots_iff hwf).2 ⟨State.slotValid_iff.2 ⟨hlt, hvalid⟩, rfl⟩, hp⟩

theorem State.forall_mem_validSlots_iff {s : State} (hwf : Sparse.wf Slot.empty s.slots = true) {p : Nat × Slot → Prop} :
    (∀ e ∈ s.validSlots, p e) ↔ ∀ k, k < s.nslot → (s.slotAt k).valid = true → p (k, s.slotAt k) := by
  have hsome := not_congr (State.exists_mem_validSlots_iff hwf (p := fun e => ¬ p e))
  push Not at hsome
  exact hsome

theorem State.someAsset_iff {s : State} (hwf : Sparse.wf Slot.empty s.slots = true) : s.someAsset = true ↔
    ∃ k, k < s.nslot ∧ (s.slotAt k).valid = true ∧ (s.slotAt k).pixcnt ≠ 0#24 := by
  rw [State.someAsset, List.any_eq_true, State.exists_mem_validSlots_iff hwf]
  simp only [decide_eq_true_eq]

theorem State.peaksReady_iff {s : State} (hwf : Sparse.wf Slot.empty s.slots = true) : s.peaksReady = true ↔
    s.cfg.matchalg = 0#1 ∨
      (s.status.pkValid = true ∧ ∀ k, k < s.nslot → (s.slotAt k).valid = true → (s.slotAt k).pkvalid = true) := by
  rw [State.peaksReady, Bool.or_eq_true, decide_eq_true_eq, Bool.and_eq_true, List.all_eq_true,
    State.forall_mem_validSlots_iff hwf]

/-- The candidate slot `k` stands for (45_assets_match R172). -/
def State.candidateAt (s : State) (k : Nat) : Candidate :=
  { index := k, ident := (s.slotAt k).ident, score := (s.matchScore (s.slotAt k)).1,
    degen := (s.matchScore (s.slotAt k)).2 }

theorem State.mem_candidates_iff {s : State} (hwf : Sparse.wf Slot.empty s.slots = true) {c : Candidate} :
    c ∈ s.candidates ↔ ∃ k, k < s.nslot ∧ (s.slotAt k).valid = true ∧ s.candidateAt k = c := by
  rw [State.candidates, List.mem_map, State.exists_mem_validSlots_iff hwf]
  rfl

/-! ## The ranking (45_assets_match R173) -/

/-- `w` ranks at or above `c`: greater score, or the same and a lower id, or the same and no greater index. -/
def Candidate.AtLeast (w c : Candidate) : Prop :=
  c.score < w.score ∨ (c.score = w.score ∧
    (w.ident.toNat < c.ident.toNat ∨ (w.ident = c.ident ∧ w.index ≤ c.index)))

theorem Candidate.atLeast_refl (c : Candidate) : c.AtLeast c := .inr ⟨rfl, .inr ⟨rfl, le_rfl⟩⟩

theorem Candidate.AtLeast.trans {a b c : Candidate} (hab : a.AtLeast b) (hbc : b.AtLeast c) : a.AtLeast c := by
  unfold Candidate.AtLeast at *
  rw [← BitVec.toNat_inj] at *
  omega

theorem Candidate.beats_iff {a b : Candidate} : a.beats b = true ↔ b.score < a.score ∨ (b.score = a.score ∧
    (a.ident.toNat < b.ident.toNat ∨ (a.ident = b.ident ∧ a.index < b.index))) := by
  simp only [Candidate.beats, Bool.or_eq_true, Bool.and_eq_true, decide_eq_true_eq]

theorem Candidate.atLeast_of_beats {a b : Candidate} (h : a.beats b = true) : a.AtLeast b := by
  rw [Candidate.beats_iff] at h
  exact h.imp_right (And.imp_right (Or.imp_right (And.imp_right le_of_lt)))

/-- The ranking is total: who is not beaten ranks at or above the other. -/
theorem Candidate.atLeast_of_not_beats {a b : Candidate} (h : ¬ a.beats b = true) : b.AtLeast a := by
  rw [Candidate.beats_iff] at h
  unfold Candidate.AtLeast
  rw [← BitVec.toNat_inj] at *
  omega

/-- What the winner of a list with a head can be: the head alone, or the better of the head and the tail's winner. -/
theorem winner_cons_cases (a : Candidate) (cs : List Candidate) :
    (winner cs = none ∧ winner (a :: cs) = some a) ∨
    ∃ b, winner cs = some b ∧ ((b.beats a = true ∧ winner (a :: cs) = some b) ∨
      (¬ b.beats a = true ∧ winner (a :: cs) = some a)) := by
  cases hb : winner cs with
  | none => exact .inl ⟨rfl, by rw [winner, hb]⟩
  | some b =>
    refine .inr ⟨b, rfl, ?_⟩
    by_cases hbeats : b.beats a = true
    · exact .inl ⟨hbeats, by rw [winner, hb]; exact if_pos hbeats⟩
    · exact .inr ⟨hbeats, by rw [winner, hb]; exact if_neg hbeats⟩

theorem exists_winner : ∀ {cs : List Candidate}, cs ≠ [] → ∃ w, winner cs = some w
  | [], h => absurd rfl h
  | a :: cs, _ => by
    rcases winner_cons_cases a cs with ⟨-, h⟩ | ⟨b, -, ⟨-, h⟩ | ⟨-, h⟩⟩ <;> exact ⟨_, h⟩

/-- The winner ranks at or above every candidate: above the head by its comparison, above the tail by the tail's winner. -/
theorem winner_atLeast : ∀ {cs : List Candidate} {w : Candidate}, winner cs = some w → ∀ c ∈ cs, w.AtLeast c
  | [], _, _ => nofun
  | a :: cs, w, hw => by
    rw [List.forall_mem_cons]
    rcases winner_cons_cases a cs with ⟨hnone, h⟩ | ⟨b, hb, ⟨hbeats, h⟩ | ⟨hbeats, h⟩⟩ <;>
      obtain rfl := Option.some.inj (hw.symm.trans h)
    · have hnil : cs = [] := by
        by_contra hne
        obtain ⟨b, hb⟩ := exists_winner hne
        exact Option.some_ne_none b (hb.symm.trans hnone)
      exact ⟨w.atLeast_refl, hnil ▸ nofun⟩
    · exact ⟨Candidate.atLeast_of_beats hbeats, winner_atLeast hb⟩
    · have hhead := Candidate.atLeast_of_not_beats hbeats
      exact ⟨w.atLeast_refl, fun c hc => hhead.trans (winner_atLeast hb c hc)⟩

/-- Settles O37: a list with a candidate has a winner, which is a member and ranks at or above every member. -/
theorem winnerIsGreatestThenLowest : Obligations.WinnerIsGreatestThenLowest :=
  fun _ => ⟨exists_winner, fun _ hw => ⟨mem_of_winner hw, winner_atLeast hw⟩⟩

/-! ## The commands (45_assets_match R170, R171, R174) -/

/-- With its checks passed `A.COMMIT` writes the slot (45_assets_match R170). -/
theorem exec_aCommit_of_checks {s : State} {slot : BitVec 16} (herr : s.status.err = false)
    (hopen : s.status.sealed = false) (hlt : slot.toNat < s.nslot) (hvalid : s.status.sValid = true) :
    exec (.aCommit slot) s = .next (s.setSlot slot.toNat (s.committed (s.slotAt slot.toNat))) := by
  rw [exec_aCommit, State.gate_of_clear herr, State.require_of_true (by rw [hopen]; rfl),
    State.require_of_true (decide_eq_true hlt), State.require_of_true hvalid]

/-- Settles O35: the checks pass, and the slot written reads back as `committed`. -/
theorem aCommitCopiesTheTile : Obligations.ACommitCopiesTheTile := by
  intro s slot herr hopen hlt hvalid hwf
  have hslots := fun j => State.slotAt_setSlot hwf slot.toNat j (s.committed (s.slotAt slot.toNat))
  refine ⟨_, s.committed (s.slotAt slot.toNat), exec_aCommit_of_checks herr hopen hlt hvalid, rfl,
    (hslots _).trans (if_pos rfl), fun k hk => (hslots k).trans (if_neg hk), rfl, rfl, rfl, rfl,
    fun hpk => State.committed_cl hpk _, fun hpk => ?_, fun i => Sparse.read_replaceBelow _ _ _ i⟩
  exact if_neg (Bool.eq_false_iff.1 hpk)

/-- Settles O36: `A.SEAL` has no check. -/
theorem aSealSetsSealed : Obligations.ASealSetsSealed := fun s herr => by
  rw [exec_aSeal, State.gate_of_clear herr]
  rfl

/-- With its checks passed `MATCH` writes the winner (45_assets_match R174). -/
theorem exec_matchBest_of_checks {s : State} {w : Candidate} (herr : s.status.err = false)
    (hsealed : s.status.sealed = true) (hvalid : s.status.sValid = true) (hready : s.peaksReady = true)
    (hasset : s.someAsset = true) (hw : winner s.candidates = some w) : exec .matchBest s = .next (s.setBest w) := by
  rw [exec_matchBest, State.gate_of_clear herr, State.require_of_true hsealed, State.require_of_true hvalid,
    State.require_of_true hready, State.require_of_true hasset, hw]

/-- `DEGEN` collects the degenerate pairs of all valid slots, not the winner's alone (45_assets_match R174). -/
theorem State.setBest_degen_iff {s : State} (hwf : Sparse.wf Slot.empty s.slots = true) (w : Candidate) :
    (s.setBest w).status.degen = true ↔
      ∃ j, j < s.nslot ∧ (s.slotAt j).valid = true ∧ (s.matchScore (s.slotAt j)).2 = true := by
  have hany : (s.setBest w).status.degen = s.candidates.any fun c => c.degen := rfl
  rw [hany, State.candidates, List.any_map, List.any_eq_true, State.exists_mem_validSlots_iff hwf]
  rfl

/-- Settles O38: a valid slot with a pixel makes the candidates a non-empty list, whose winner is the candidate of a slot. -/
theorem matchWritesTheWinner : Obligations.MatchWritesTheWinner := by
  intro s herr hsealed hvalid hmem hlists hpixel
  have hwf := hmem.slots_wf
  have hne : s.candidates ≠ [] := by
    obtain ⟨j, hlt, hslot, -⟩ := hpixel
    exact List.ne_nil_of_mem ((State.mem_candidates_iff hwf).2 ⟨j, hlt, hslot, rfl⟩)
  obtain ⟨w, hw⟩ := exists_winner hne
  obtain ⟨k, hlt, hslot, rfl⟩ := (State.mem_candidates_iff hwf).1 (mem_of_winner hw)
  exact ⟨_, k, exec_matchBest_of_checks herr hsealed hvalid ((State.peaksReady_iff hwf).2 hlists)
      ((State.someAsset_iff hwf).2 hpixel) hw, hlt, hslot,
    fun j hj hjslot => winner_atLeast hw _ ((State.mem_candidates_iff hwf).2 ⟨j, hj, hjslot, rfl⟩),
    rfl, rfl, State.setBest_degen_iff hwf _⟩

/-! ## The checks (45_assets_match R170, R174, R175, 60_exceptions R193) -/

theorem State.peaksReady_eq_false {s : State} (hwf : Sparse.wf Slot.empty s.slots = true) (halg : s.cfg.matchalg = 1#1)
    (hmissing : s.status.pkValid = false ∨
      ∃ k, k < s.nslot ∧ (s.slotAt k).valid = true ∧ (s.slotAt k).pkvalid = false) : s.peaksReady = false := by
  rw [← Bool.not_eq_true, State.peaksReady_iff hwf, halg]
  rintro (h | ⟨hpk, hall⟩)
  · exact absurd h (by decide)
  · rcases hmissing with h | ⟨k, hlt, hslot, h⟩
    · exact ne_false_of_eq_true hpk h
    · exact ne_false_of_eq_true (hall k hlt hslot) h

theorem State.someAsset_eq_false {s : State} (hwf : Sparse.wf Slot.empty s.slots = true)
    (hempty : ∀ k, k < s.nslot → (s.slotAt k).valid = true → (s.slotAt k).pixcnt = 0#24) : s.someAsset = false := by
  rw [← Bool.not_eq_true, State.someAsset_iff hwf]
  rintro ⟨k, hlt, hslot, hpix⟩
  exact hpix (hempty k hlt hslot)

/-- Settles O39: in each clause the checks before the named one pass, and that one fails. `MATCH` raises `ERR_SEQ` at its
second and its third check. -/
theorem commitAndMatchChecks : Obligations.CommitAndMatchChecks := by
  intro s slot herr hmem
  have hwf := hmem.slots_wf
  simp only [exec_aCommit, exec_matchBest, ← encode_aCommit]
  refine ⟨fun hsealed => ?_, fun hopen hge => ?_, fun hopen hlt hvalid => ?_, fun hopen => ?_,
    fun hsealed hlists => ?_, fun hsealed hvalid hlists hempty => ?_⟩
  · rw [State.gate_require_of_false herr (by rw [hsealed]; rfl)]
    rfl
  · rw [State.require_of_true (by rw [hopen]; rfl),
      State.gate_require_of_false herr (decide_eq_false (Nat.not_lt.2 hge))]
    rfl
  · rw [State.require_of_true (by rw [hopen]; rfl), State.require_of_true (decide_eq_true hlt),
      State.gate_require_of_false herr hvalid]
    rfl
  · rw [State.gate_require_of_false herr hopen]
    rfl
  · rw [State.require_of_true hsealed]
    by_cases hvalid : s.status.sValid = true
    · obtain ⟨halg, hmissing⟩ := hlists.resolve_left (ne_false_of_eq_true hvalid)
      rw [State.require_of_true hvalid,
        State.gate_require_of_false herr (State.peaksReady_eq_false hwf halg hmissing)]
      rfl
    · rw [State.gate_require_of_false herr (eq_false_of_ne_true hvalid)]
      rfl
  · rw [State.require_of_true hsealed, State.require_of_true hvalid,
      State.require_of_true ((State.peaksReady_iff hwf).2 hlists),
      State.gate_require_of_false herr (State.someAsset_eq_false hwf hempty)]
    rfl

end Sys2Proof.Machine
end

section
/-! The system commands (46_system): `NOP` answers the state it was given. -/

namespace Sys2Proof.Machine

/-- Settles O7: `NOP` is the one command besides `SRESET` whose meaning is not a gated effect (`exec_nop`), so a latched
fault makes no second case (46_system R185). -/
theorem nopChangesNothing : Obligations.NopChangesNothing := exec_nop

end Sys2Proof.Machine
end

section
/-! Precise faults, the `ERR` gate and reset (60_exceptions R190 to R195, 70_reset_and_hazards R220): an access that latches a
fault has written the fault record and nothing else, but for the `PIXIN` of a faulting `PIXPUSH`; a latched fault drops every
write but `SRESET`; reset leaves the reset values and meets every invariant. -/

namespace Sys2Proof.Machine

/-! ## Precise effects (60_exceptions R191) -/

/-- If `t` has a fault latched, then `t` is `s` with the record of a fault with `info`, and nothing else changed. -/
def State.PreciseTo (s : State) (info : Word) (t : State) : Prop :=
  t.status.err = true →
    ∃ c : ErrCode, t = s.setStatus { s.status with err := true, errCode := c.code, errInfo := info }

/-- An effect that latches no fault is precise. -/
theorem State.PreciseTo.of_clear {s t : State} {info : Word} (h : t.status.err = false) : s.PreciseTo info t :=
  fun hfault => absurd hfault (Bool.eq_false_iff.1 h)

theorem State.preciseTo_raise {s : State} (herr : s.status.err = false) (c : ErrCode) (info : Word) :
    s.PreciseTo info (s.raise c info) :=
  fun _ => ⟨c, State.raise_of_clear herr c info⟩

theorem State.preciseTo_gate {s e : State} {info : Word} (herr : s.status.err = false) (he : s.PreciseTo info e) :
    s.PreciseTo info (s.gate e) := by
  rwa [State.gate_of_clear herr]

/-- A check comes before its command writes anything (60_exceptions R193). -/
theorem State.preciseTo_require {s k : State} (herr : s.status.err = false) {ok : Bool} {c : ErrCode} {i : Instr}
    (hk : s.PreciseTo (encode i) k) : s.PreciseTo (encode i) (s.require ok c i k) := by
  cases ok with
  | false => exact State.preciseTo_raise herr c (encode i)
  | true => exact hk

/-! ## Commands -/

theorem State.preciseTo_accumulate {s : State} (herr : s.status.err = false) :
    s.PreciseTo (encode .hAcc) s.accumulate :=
  State.preciseTo_require herr (State.preciseTo_require herr (.of_clear herr))

/-- Every command is precise: its checks stand before its effect, and no effect latches a fault. The empty case of `MATCH`
raises one after all checks, still before any write (45_assets_match R175). -/
theorem exec_preciseTo {s t : State} (herr : s.status.err = false) {i : Instr} (h : exec i s = .next t) :
    s.PreciseTo (encode i) t := by
  cases i with
  | nop =>
    cases h
    exact .of_clear herr
  | cvtRgb2hcl | hClear | aSeal =>
    cases h
    exact State.preciseTo_gate herr (.of_clear herr)
  | sreset =>
    cases h
    exact .of_clear rfl
  | hAcc =>
    cases h
    exact State.preciseTo_gate herr (State.preciseTo_accumulate herr)
  | cvtHcl2rgb | quant | pExtract =>
    cases h
    exact State.preciseTo_gate herr (State.preciseTo_require herr (.of_clear herr))
  | hSmooth =>
    cases h
    exact State.preciseTo_gate herr (State.preciseTo_require herr (State.preciseTo_require herr (.of_clear herr)))
  | aCommit slot | sCorr slot =>
    cases h
    exact State.preciseTo_gate herr (State.preciseTo_require herr (State.preciseTo_require herr
      (State.preciseTo_require herr (.of_clear herr))))
  | sPeak slot =>
    cases h
    exact State.preciseTo_gate herr (State.preciseTo_require herr (State.preciseTo_require herr
      (State.preciseTo_require herr (State.preciseTo_require herr (.of_clear herr)))))
  | matchBest =>
    cases h
    refine State.preciseTo_gate herr (State.preciseTo_require herr (State.preciseTo_require herr
      (State.preciseTo_require herr (State.preciseTo_require herr ?_))))
    split
    · exact .of_clear herr
    · exact State.preciseTo_raise herr _ _

/-! ## Register writes -/

/-- Installing a legal value latches a fault only for `PIXPUSH`, and for `DEPTH` while it is locked (10_state R19). -/
theorem install_preciseTo {s : State} (herr : s.status.err = false) {r : Reg} (hr : r ≠ .pixpush) (v : Word) :
    s.PreciseTo (BitVec.ofNat 32 r.offset) (s.install r v) := by
  cases r
  case pixpush => exact absurd rfl hr
  case depth =>
    rcases writeDepth_cases s v with ⟨-, h⟩ | ⟨-, -, h⟩ | ⟨-, -, h⟩ <;> rw [State.install, h]
    · exact .of_clear herr
    · exact State.preciseTo_raise herr _ _
    · exact .of_clear herr
  all_goals exact .of_clear herr

theorem writeReg_preciseTo {s : State} (herr : s.status.err = false) {r : Reg} (hr : r ≠ .pixpush) (v : Word) :
    s.PreciseTo (BitVec.ofNat 32 r.offset) (s.writeReg r v) := by
  rcases writeReg_cases s r v with ⟨-, h⟩ | ⟨-, -, h⟩ | ⟨-, -, h⟩ <;> rw [h]
  · exact State.preciseTo_raise herr _ _
  · exact State.preciseTo_raise herr _ _
  · exact install_preciseTo herr hr v

/-! ## Accesses -/

/-- What a write at `off` has changed before it can fault: `PIXPUSH` writes `PIXIN` (42_histogram R123). -/
def State.faultBase (s : State) (off : Nat) (v : Word) : State :=
  s.setData (if off = 0x14 then { s.data with pixin := v } else s.data)

/-- `ERRINFO` of a faulting write: the command word, the word of `H.ACC`, or the offset (60_exceptions R191). -/
def faultInfo (off : Nat) (v : Word) : Word :=
  if off = 0x04 then v else if off = 0x14 then 0x21000000#32 else BitVec.ofNat 32 off

/-- A write outside `CMD` and `PIXPUSH` faults with its offset and has changed nothing. -/
theorem State.PreciseTo.faultBase_of_ne {s t : State} {off : Nat} (hcmd : off ≠ 0x04) (hpush : off ≠ 0x14) (v : Word)
    (h : s.PreciseTo (BitVec.ofNat 32 off) t) : (s.faultBase off v).PreciseTo (faultInfo off v) t := by
  rw [State.faultBase, faultInfo, if_neg hpush, if_neg hcmd, if_neg hpush]
  exact h

theorem Reg.offset_injective : Function.Injective Reg.offset := fun r r' h =>
  Option.some.inj (by rw [← Reg.atOffset_offset r, h, Reg.atOffset_offset])

/-- A register write is precise; `PIXPUSH` is `H.ACC` with the new `PIXIN` (42_histogram R123). -/
theorem writeReg_preciseTo_faultBase {s : State} (herr : s.status.err = false) {r : Reg} (hcmd : r ≠ .cmd) (v : Word) :
    (s.faultBase r.offset v).PreciseTo (faultInfo r.offset v) (s.writeReg r v) := by
  by_cases hpush : r = .pixpush
  · subst hpush
    exact State.preciseTo_accumulate (s := s.setData { s.data with pixin := v }) herr
  · exact (writeReg_preciseTo herr hpush v).faultBase_of_ne (Reg.offset_injective.ne hcmd) (Reg.offset_injective.ne hpush) v

/-- An access that latches a fault is a write, and it is precise (60_exceptions R190, R191). -/
theorem access_preciseTo {s t : State} {a : Access} (h : s.access a = .next t) (herr : s.status.err = false)
    (hfault : t.status.err = true) :
    ∃ off v, a = .wr .word off v ∧ (s.faultBase off v).PreciseTo (faultInfo off v) t := by
  have hwidth := width_of_access h
  rcases access_cases h with ⟨w, off, -, rfl⟩ | ⟨w, v, i, rfl, hdecode, hexec⟩ | ⟨w, v, e, rfl, -, rfl⟩ |
    ⟨w, r, v, rfl, hcmd, rfl⟩ | ⟨w, off, v, rfl, hoff, rfl⟩
  · exact absurd hfault (Bool.eq_false_iff.1 herr)
  · obtain rfl : w = .word := hwidth
    obtain rfl := encode_of_decode hdecode
    exact ⟨_, _, rfl, exec_preciseTo herr hexec⟩
  · obtain rfl : w = .word := hwidth
    exact ⟨_, _, rfl, State.preciseTo_gate herr (State.preciseTo_raise herr .illegalCmd v)⟩
  · obtain rfl : w = .word := hwidth
    rw [State.gate_of_clear herr]
    exact ⟨_, _, rfl, writeReg_preciseTo_faultBase herr hcmd v⟩
  · obtain rfl : w = .word := hwidth
    have hmapped : ∀ r : Reg, off ≠ r.offset := by
      rintro r rfl
      rw [Reg.atOffset_offset] at hoff
      cases hoff
    rw [State.gate_of_clear herr]
    exact ⟨_, _, rfl, (State.preciseTo_raise herr .access _).faultBase_of_ne (hmapped .cmd) (hmapped .pixpush) v⟩

/-- Settles O51: the step is an access of the state with the pending list shortened, and that access is precise. -/
theorem faultsArePrecise : Obligations.FaultsArePrecise := by
  intro s t hstep herr hfault
  rcases step_cases hstep with ⟨-, rfl⟩ | ⟨a, rest, hpending, haccess⟩
  · exact absurd hfault (Bool.eq_false_iff.1 herr)
  · obtain ⟨off, v, rfl, hprecise⟩ := access_preciseTo haccess herr hfault
    obtain ⟨c, rfl⟩ := hprecise hfault
    exact ⟨off, v, rest, c, hpending, rfl, rfl⟩

/-! ## Writes while a fault is latched (60_exceptions R194) -/

/-- Only the `SRESET` word to `CMD` passes the gate. -/
theorem writeCmd_of_err {s : State} (herr : s.status.err = true) {v : Word} (hv : v ≠ 0x01000000#32) :
    s.writeCmd v = .next s := by
  unfold State.writeCmd
  split
  · next i hdecode =>
    refine exec_of_err herr ?_
    rintro rfl
    exact hv (encode_of_decode hdecode).symm
  · exact State.command_of_err herr _

theorem access_wr_of_err {s : State} (herr : s.status.err = true) {off : Nat} {v : Word} (h4 : off % 4 = 0)
    (hlt : off < 256) (hno : ¬ (off = 0x04 ∧ v = 0x01000000#32)) : s.access (.wr .word off v) = .next s := by
  cases hoff : Reg.atOffset off with
  | none => rw [access_wr_unmapped s h4 hlt hoff, State.gate_of_err herr]
  | some r =>
    obtain rfl := Reg.offset_of_atOffset hoff
    by_cases hcmd : r = .cmd
    · subst hcmd
      exact (access_wr_cmd s v).trans (writeCmd_of_err herr fun hv => hno ⟨rfl, hv⟩)
    · rw [access_wr_reg s hcmd, State.gate_of_err herr]

/-- The `SRESET` word resets the CME from every state (46_system R186). -/
theorem access_wr_sreset (s : State) : s.access (.wr .word 0x04 0x01000000#32) = .next s.toReset := by
  have hdecode : decode 0x01000000#32 = .ok .sreset := decode_of_encode_eq rfl
  rw [access_wr_cmd, writeCmd_of_decode s hdecode, exec_sreset]

/-- Settles O50: the gate drops each kind of write; `SRESET` and reads do not pass through it. -/
theorem faultedMachineDropsWrites : Obligations.FaultedMachineDropsWrites := fun s _ _ herr h4 hlt =>
  ⟨access_wr_of_err herr h4 hlt, ⟨s.toReset, access_wr_sreset s, rfl⟩, access_rd s h4 hlt⟩

/-! ## Reset (70_reset_and_hazards R220) -/

/-- After reset every slot reads as empty. -/
theorem State.slotAt_of_slots_nil {s : State} (h : s.slots = []) (k : Nat) : s.slotAt k = Slot.empty := by
  rw [State.slotAt, h, Sparse.read_nil]

/-- Settles O8: both events leave the same registers, the same counts and an empty store. -/
theorem resetLeavesTheResetValues : Obligations.ResetLeavesTheResetValues := by
  refine ⟨fun s => ⟨s.toReset, exec_sreset s, rfl⟩, fun s t n hreset => ?_⟩
  have hvalues : t.status = .reset ∧ t.data = .reset ∧ t.cfg = .reset ∧ t.win = .reset ∧ t.pixcnt = 0#24 ∧
      t.tcl = [] ∧ t.slots = [] := by
    rcases hreset with hexec | rfl
    · rw [exec_sreset] at hexec
      cases hexec
      exact ⟨rfl, rfl, rfl, rfl, rfl, rfl, rfl⟩
    · exact ⟨rfl, rfl, rfl, rfl, rfl, rfl, rfl⟩
  obtain ⟨hstatus, hdata, hcfg, hwin, hpixcnt, htcl, hslots⟩ := hvalues
  refine ⟨hstatus, hdata, hcfg, hwin, hpixcnt, by rw [htcl, List.length_nil], fun k => ?_⟩
  rw [State.slotAt_of_slots_nil hslots]
  exact ⟨rfl, rfl⟩

/-- Settles O54: the invariants at reset, one lemma each. -/
theorem resetMeetsEveryInvariant : Obligations.ResetMeetsEveryInvariant := fun n =>
  ⟨resetWith_regsOk n, resetWith_memOk n, resetWith_flagsOk n, resetWith_countsOk n, resetWith_massOk n,
    resetWith_faultOk n, resetWith_resultsOk n, resetWith_clustersOk n⟩

end Sys2Proof.Machine
end
